-- ==== Sys2Proof/Word.lean ====
section
/-! DEFINITION. The word types of the block (R5, R7): every width is fixed by the spec. -/

namespace Sys2Proof

/-- A host-bus data word (R5: 32 bits). -/
abbrev Word := BitVec 32

/-- A CRC accumulator value (R71: 16 bits). -/
abbrev Half := BitVec 16

/-- A byte of a frame (R7: 8 bits). -/
abbrev Byte := BitVec 8

/-- A length field (R5: 9 bits). -/
abbrev Len := BitVec 9

/-- A byte offset into the register window (R36: 12 bits). -/
abbrev Offset := BitVec 12

end Sys2Proof
end

