-- ==== Sys2Proof/Config.lean ====
section
/-! DEFINITION. The implementation parameters of R5 and the one free value of the block (R111). -/

namespace Sys2Proof.Config

/-- `MAX_FRAME` (R5, R56): the capacity of each frame buffer and the upper frame-length bound. -/
abbrev maxFrame : Nat := 256

/-- `MIN_FRAME` (R5, R55): address, one PDU byte and two CRC bytes. -/
abbrev minFrame : Nat := 4

/-- `MAX_PDU` (R5, R56): what is left of a longest frame for the PDU. -/
abbrev maxPdu : Nat := maxFrame - 3

/-- `CRC_INIT` (R5, R72). -/
abbrev crcInit : Half := 0xFFFF#16

/-- `CRC_POLY` (R5, R71): the reflected polynomial. -/
abbrev crcPoly : Half := 0xA001#16

/-- FREE VALUE (R111, 93 U2; log entry 2): the byte that a buffer word, not written since the last reset, holds.
The first argument counts the resets, so that every reset draws anew; the second is the word's window offset.
It has no body: nothing can be proved about the byte it gives. -/
opaque bufferDraw : Nat → Nat → Byte

end Sys2Proof.Config
end

