-- ==== Sys2Proof/Syntax.lean ====
section
/-! DEFINITION. The commands of the block (R65), the names of its registers (R14), and the statements of the spec's
assembler (R69, R70). -/

namespace Sys2Proof

/-- One constructor per row of the opcode map (R65). An illegal word (R67) is none of these. -/
inductive Instr where
  /-- `CRC.INIT` (R73). -/
  | crcInit
  /-- `CRC.BYTE imm8` (R74); the operand is the unsigned byte IMM8, used as it is (R66). -/
  | crcByte (imm8 : Byte)
  /-- `FRM.ENCODE` (R77). -/
  | frmEncode
  /-- `FRM.VALIDATE` (R80). -/
  | frmValidate
  /-- `STS.CLEAR` (R91). -/
  | stsClear
  deriving DecidableEq, Repr

/-- The twelve registers of R14. -/
inductive Reg where
  | ctrl | cmd | status | crc | crcw | txaddr | txlen | txflen | rxlen | rxexp | rxplen | rxcrc
  deriving DecidableEq, Repr

/-- A `<target>` of an assembler statement (R69); numbers are the numerals of the source line. -/
inductive AsmTarget where
  | reg (r : Reg)
  | txbuf (i : Nat)
  | rxbuf (i : Nat)
  | offset (n : Nat)
  deriving DecidableEq, Repr

/-- The two basic statements of R69; `expect` is the value the program states for a read. -/
inductive AsmLine where
  | w32 (target : AsmTarget) (value : Nat)
  | r32 (target : AsmTarget) (expect : Option Nat)
  deriving DecidableEq, Repr

/-- A statement of a host program: the basic ones, the command mnemonics (R69) and the pseudo-instructions (R70). -/
inductive AsmStmt where
  | line (l : AsmLine)
  | crcInit
  | crcByte (imm8 : Nat)
  | frmEncode
  | frmValidate
  | stsClear
  | txb (i b : Nat)
  | rxb (i b : Nat)
  | crc16 (bytes : List Nat)
  | txload (a : Nat) (pdu : List Nat)
  | rxload (bytes : List Nat)
  | checkok
  deriving DecidableEq, Repr

end Sys2Proof
end

