-- ==== Sys2Proof/WellFormed.lean ====
section
/-! DEFINITION. Which commands and which assembler statements are well formed. -/

namespace Sys2Proof

/-- Every command is well formed: the only operand, IMM8, has exactly the width of its field (R63, R66). The
range check on a source line's numeral is `AsmStmt.wf` (R69). -/
def Instr.wf : Instr → Bool
  | .crcInit => true
  | .crcByte _ => true
  | .frmEncode => true
  | .frmValidate => true
  | .stsClear => true

/-- A target exists: buffer indices run to `MAX_FRAME - 1` (R30, R31) and a numeric offset has 12 bits (R36). -/
def AsmTarget.wf : AsmTarget → Bool
  | .reg _ => true
  | .txbuf i => decide (i < Config.maxFrame)
  | .rxbuf i => decide (i < Config.maxFrame)
  | .offset n => decide (n < 4096)

/-- A numeral that fits the 32-bit word it is written to or read from (R69). -/
def asmValueWf (v : Nat) : Bool := decide (v < 4294967296)

/-- A basic statement spells no value out of range (R69). -/
def AsmLine.wf : AsmLine → Bool
  | .w32 t v => t.wf && asmValueWf v
  | .r32 t none => t.wf
  | .r32 t (some v) => t.wf && asmValueWf v

/-- "A source line spelling a value out of range is refused, not truncated" (R69). For the pseudo-instructions of R70
a value is what its expansion writes, and an index is one of the buffer's (log entry 10). -/
def AsmStmt.wf : AsmStmt → Bool
  | .line l => l.wf
  | .crcInit => true
  | .crcByte imm8 => decide (imm8 < 256)
  | .frmEncode => true
  | .frmValidate => true
  | .stsClear => true
  | .txb i b => decide (i < Config.maxFrame) && asmValueWf b
  | .rxb i b => decide (i < Config.maxFrame) && asmValueWf b
  | .crc16 bytes => bytes.all (fun b => decide (b < 256))
  | .txload a pdu => asmValueWf a && pdu.all asmValueWf && decide (pdu.length < Config.maxFrame)
  | .rxload bytes => bytes.all asmValueWf && decide (bytes.length ≤ Config.maxFrame)
  | .checkok => true

end Sys2Proof
end

