-- ==== Sys2Proof/Decode.lean ====
section
/-! DEFINITION. The command decoder (R63 to R67), total on 32-bit words and rejecting by name, and the encoder. -/

namespace Sys2Proof

/-- OP, bits [3:0] of a command word (R63). -/
def wordOp (w : Word) : BitVec 4 := w.extractLsb' 0 4

/-- RSV0, bits [7:4] (R63): must be 0. -/
def wordRsv0 (w : Word) : BitVec 4 := w.extractLsb' 4 4

/-- IMM8, bits [15:8] (R63). -/
def wordImm8 (w : Word) : Byte := w.extractLsb' 8 8

/-- RSV1, bits [31:16] (R63): must be 0. -/
def wordRsv1 (w : Word) : BitVec 16 := w.extractLsb' 16 16

/-- The three ways a word can be illegal, in R67's words. The block does not tell them apart. -/
inductive IllegalReason where
  /-- OP is 0x0 or 0x6 to 0xF. -/
  | opcode
  /-- OP is in the map, and RSV0 or RSV1 is not 0. -/
  | reservedBits
  /-- IMM8 is not 0 under an opcode other than CRC.BYTE. -/
  | immediate
  deriving DecidableEq, Repr

/-- What a word means: one of the five commands, or illegal (R64: "exactly one of the six cases"). -/
inductive Decoded where
  | command (i : Instr)
  | illegal (why : IllegalReason)
  deriving DecidableEq, Repr

/-- Why a word outside the map is outside it (R67). -/
def illegalReason (w : Word) : IllegalReason :=
  if wordOp w = 0 ∨ 6 ≤ (wordOp w).toNat then .opcode
  else if wordRsv0 w ≠ 0 ∨ wordRsv1 w ≠ 0 then .reservedBits
  else .immediate

/-- The decoder of R64, case by case. -/
def decode (w : Word) : Decoded :=
  if w = 0x00000001#32 then .command .crcInit
  else if w &&& 0xFFFF00FF#32 = 0x00000002#32 then .command (.crcByte (wordImm8 w))
  else if w = 0x00000003#32 then .command .frmEncode
  else if w = 0x00000004#32 then .command .frmValidate
  else if w = 0x00000005#32 then .command .stsClear
  else .illegal (illegalReason w)

/-- The instruction a decoding holds, if it holds one. -/
def Decoded.instr? : Decoded → Option Instr
  | .command i => some i
  | .illegal _ => none

/-- The word of a command (R69's expansions; R65's match column). -/
def encode : Instr → Word
  | .crcInit => 0x00000001#32
  | .crcByte imm8 => 0x00000002#32 ||| (imm8.setWidth 32 <<< 8)
  | .frmEncode => 0x00000003#32
  | .frmValidate => 0x00000004#32
  | .stsClear => 0x00000005#32

/-- A row of the opcode map (R65): a word belongs to the row when `word &&& mask = bits`. -/
structure OpcodeRow where
  mnemonic : String
  mask : Word
  bits : Word
  deriving DecidableEq, Repr

/-- The opcode map (R65). -/
def opcodeRows : List OpcodeRow :=
  [ ⟨"CRC.INIT", 0xFFFFFFFF#32, 0x00000001#32⟩,
    ⟨"CRC.BYTE", 0xFFFF00FF#32, 0x00000002#32⟩,
    ⟨"FRM.ENCODE", 0xFFFFFFFF#32, 0x00000003#32⟩,
    ⟨"FRM.VALIDATE", 0xFFFFFFFF#32, 0x00000004#32⟩,
    ⟨"STS.CLEAR", 0xFFFFFFFF#32, 0x00000005#32⟩ ]

/-- The word belongs to the row (R65). -/
def OpcodeRow.covers (r : OpcodeRow) (w : Word) : Bool := w &&& r.mask == r.bits

/-- The name of a command in the opcode map (R65). -/
def Instr.mnemonic : Instr → String
  | .crcInit => "CRC.INIT"
  | .crcByte _ => "CRC.BYTE"
  | .frmEncode => "FRM.ENCODE"
  | .frmValidate => "FRM.VALIDATE"
  | .stsClear => "STS.CLEAR"

/-- The command word of an instruction given as a number of `nbits` bits, the bits above them 0 (every command is one
32-bit word, R63). -/
def tableWord (nbits w : Nat) : Word := BitVec.ofNat 32 (w % 2 ^ nbits)

/-- The instruction the decoder reads from an instruction numbered as the opcode table numbers it; a number of more than
32 bits is no command word (R63: "The block has no other command length"). -/
def decodeTableWord (nbits w : Nat) : Option Instr :=
  if nbits ≤ 32 then (decode (tableWord nbits w)).instr? else none

end Sys2Proof
end

