-- ==== Sys2Proof/Machine/State.lean ====
section
/-! DEFINITION. The state of the block (R34), the host steps waiting for it, and the reasons a step can stop. -/

namespace Sys2Proof.Machine

/-- STATUS.RESULT (R19): the seven codes the block produces; 0x7 to 0xF are never produced (93 U9). -/
inductive ResultCode where
  | ok
  | frameTooShort
  | crcMismatch
  | unexpectedSlaveAddress
  | frameTooLong
  | lengthRange
  | illegalCommand
  deriving DecidableEq, Repr

/-- The width of a host access. Only 32 bits is admitted (R38). -/
inductive AccessWidth where
  | bits8 | bits16 | bits32
  deriving DecidableEq, Repr

/-- What an access does: `MemRead(off, 4)` or `MemWrite(off, 4, v)` (R9). -/
inductive AccessOp where
  | read
  | write (v : Word)
  deriving DecidableEq, Repr

/-- One host access (R6): its width, the byte lanes it enables (R38), its byte offset in the window (R36). -/
structure Access where
  width : AccessWidth
  lanes : BitVec 4
  off : Offset
  op : AccessOp
  deriving DecidableEq, Repr

/-- A step of the host or of reset (R6). -/
inductive HostStep where
  /-- One access to the window. -/
  | access (a : Access)
  /-- Reset is asserted and released (R109); `held` is the word of a CMD write it coincides with, if any (R112). -/
  | reset (held : Option Word)
  /-- The host accesses the window while reset is asserted, which R109 forbids it. -/
  | accessDuringReset (a : Access)
  deriving DecidableEq, Repr

/-- What the bus answered to the last host step. -/
inductive Response where
  /-- Nothing: no step since reset, or the step was a reset. -/
  | none
  /-- A read returned this word (R41). -/
  | readData (v : Word)
  /-- A write completed (R42). -/
  | writeDone
  /-- An error response (R96), from which the host went on. -/
  | busError (off : Offset)
  deriving DecidableEq, Repr

/-- Why an access got a bus error, in the order of R99. The block records none of it (R96). -/
inductive BusErrorCause where
  /-- Not 32 bits wide, or not all four lanes (R38). -/
  | width
  /-- `off[1:0]` is not 0 (R39). -/
  | misaligned
  /-- No register or buffer word at the offset (R40). -/
  | unmapped
  deriving DecidableEq, Repr

/-- The faults of a host step. -/
inductive Fault where
  /-- `raise BusError(off)` (R96), raised by `access`. Safe: the spec names it a fault of the host step, and the block
  does not change; `State.afterBusError` is the state in which the host may go on. -/
  | busError (off : Offset) (cause : BusErrorCause)
  deriving DecidableEq, Repr

/-- Why there is no step. -/
inductive Refusal where
  /-- An instruction whose meaning is not written yet. No arm raises it. Safe. -/
  | notModelled (mnemonic : String)
  /-- The host has issued nothing, and every step is a host access or a reset (R6); raised by `step`. Safe. -/
  | noHostStep
  /-- An access while reset is asserted: R109 leaves its response unspecified and gives the host no step then (93 U3);
  raised by `hostStep`. Safe. -/
  | accessDuringReset (a : Access)
  deriving DecidableEq, Repr

/-- The buffer bytes written since the last reset, by window offset (R37): offsets strictly rising. -/
abbrev Memory := List Host.Cell

/-- The canonical form. An unlisted offset is one not written since the last reset; no entry can equal that. -/
abbrev Memory.wf (m : Memory) : Prop := (m.map Prod.fst).Pairwise (· < ·)

/-- The state: the block's own (R34, from `achk` to `mem`) and the model's own (`epoch`, `pending`, `response`). -/
structure State where
  /-- CTRL.ACHK (R16). -/
  achk : Bool
  /-- STATUS.RESULT (R18, R19). -/
  result : ResultCode
  /-- STATUS.ERR (R18, R20). -/
  err : Bool
  /-- The CRC accumulator ACC (R21). -/
  acc : Half
  /-- TXADDR.ADDR (R23). -/
  txaddr : Byte
  /-- TXLEN.LEN (R24). -/
  txlen : Len
  /-- TXFLEN.LEN (R25). -/
  txflen : Len
  /-- RXLEN.LEN (R26). -/
  rxlen : Len
  /-- RXEXP.ADDR (R27). -/
  rxexp : Byte
  /-- RXPLEN.LEN (R28). -/
  rxplen : Len
  /-- RXCRC.CALC (R29). -/
  rxcrcCalc : Half
  /-- RXCRC.RECV (R29). -/
  rxcrcRecv : Half
  /-- TXBUF and RXBUF (R30, R31), by window offset. -/
  mem : Memory
  /-- How many resets have happened (log entry 2): it selects what unwritten buffer bytes hold. -/
  epoch : Nat
  /-- The host's coming steps, the next one first (R6, R13; log entry 3). -/
  pending : List HostStep
  /-- The bus response to the last host step (log entry 4). -/
  response : Response
  deriving DecidableEq, Repr

/-- The state after reset (R110, R111). -/
def State.reset : State where
  achk := true
  result := .ok
  err := false
  acc := Config.crcInit
  txaddr := 0
  txlen := 0
  txflen := 0
  rxlen := 0
  rxexp := 0
  rxplen := 0
  rxcrcCalc := 0
  rxcrcRecv := 0
  mem := []
  epoch := 0
  pending := []
  response := .none

end Sys2Proof.Machine
end

