-- ==== Sys2Proof/Machine/Ops.lean ====
section
/-! DEFINITION. The operations every meaning is written over: bytes of the buffers, register updates, byte order,
the bus error (R96) and reset (R109). -/

namespace Sys2Proof.Machine

/-- The answer of a step. -/
abbrev Result := Host.Outcome State Fault Refusal

/-- `swap16(r)` is `{r[7:0], r[15:8]}` (R9). -/
def swap16 (r : Half) : Half := r.extractLsb' 0 8 ++ r.extractLsb' 8 8

/-- `r[7:0]`, the CRC byte that goes first on the wire (R62). -/
def lowByte (r : Half) : Byte := r.extractLsb' 0 8

/-- `r[15:8]`, the CRC byte that goes last on the wire (R62). -/
def highByte (r : Half) : Byte := r.extractLsb' 8 8

/-- `{hi, lo}` (R7). -/
def joinBytes (hi lo : Byte) : Half := hi ++ lo

/-- The byte listed at an offset, if one has been written since the last reset. -/
def Memory.lookup : Memory → Nat → Option Byte
  | [], _ => none
  | (c, x) :: m, a => if c = a then some x else Memory.lookup m a

/-- A byte written at an offset, the rising order kept. -/
def Memory.write : Memory → Nat → Byte → Memory
  | [], a, b => [(a, b)]
  | (c, x) :: m, a, b =>
    if a < c then (a, b) :: (c, x) :: m
    else if a = c then (a, b) :: m
    else (c, x) :: Memory.write m a b

/-- The byte a buffer word holds: the one written last, or the draw of R111. The ONE definition of what an unlisted
offset reads as. -/
def State.byteAt (s : State) (a : Nat) : Byte :=
  (s.mem.lookup a).getD (Config.bufferDraw s.epoch a)

/-- The window offset of TXBUF[i] (R43). -/
def txOffset (i : Nat) : Nat := 0x400 + 4 * i

/-- The window offset of RXBUF[i] (R43). -/
def rxOffset (i : Nat) : Nat := 0x800 + 4 * i

/-- TXBUF[i] (R8, R30). -/
def State.txByte (s : State) (i : Nat) : Byte := s.byteAt (txOffset i)

/-- RXBUF[i] (R8, R31). -/
def State.rxByte (s : State) (i : Nat) : Byte := s.byteAt (rxOffset i)

/-- TXBUF[0..<n] (R8). -/
def State.txBytes (s : State) (n : Nat) : List Byte := (List.range n).map s.txByte

/-- RXBUF[0..<n] (R8). -/
def State.rxBytes (s : State) (n : Nat) : List Byte := (List.range n).map s.rxByte

/-- A buffer byte written, by window offset. -/
def State.writeByte (s : State) (a : Nat) (b : Byte) : State := { s with mem := s.mem.write a b }

/-- `TXBUF[i] <- b` (R9). -/
def State.writeTx (s : State) (i : Nat) (b : Byte) : State := s.writeByte (txOffset i) b

/-- `RXBUF[i] <- b` (R9). -/
def State.writeRx (s : State) (i : Nat) (b : Byte) : State := s.writeByte (rxOffset i) b

/-- `CTRL.ACHK <- v` (R16). -/
def State.setAchk (s : State) (v : Bool) : State := { s with achk := v }

/-- `ACC <- v` (R21). -/
def State.setAcc (s : State) (v : Half) : State := { s with acc := v }

/-- `TXADDR.ADDR <- v` (R23). -/
def State.setTxaddr (s : State) (v : Byte) : State := { s with txaddr := v }

/-- `TXLEN.LEN <- v` (R24). -/
def State.setTxlen (s : State) (v : Len) : State := { s with txlen := v }

/-- `TXFLEN.LEN <- v` (R25). -/
def State.setTxflen (s : State) (v : Len) : State := { s with txflen := v }

/-- `RXLEN.LEN <- v` (R26). -/
def State.setRxlen (s : State) (v : Len) : State := { s with rxlen := v }

/-- `RXEXP.ADDR <- v` (R27). -/
def State.setRxexp (s : State) (v : Byte) : State := { s with rxexp := v }

/-- `RXPLEN.LEN <- v` (R28). -/
def State.setRxplen (s : State) (v : Len) : State := { s with rxplen := v }

/-- `RXCRC.CALC <- computed; RXCRC.RECV <- received` (R29). -/
def State.setRxcrc (s : State) (computed received : Half) : State :=
  { s with rxcrcCalc := computed, rxcrcRecv := received }

/-- The bus answers the host's step. -/
def State.respond (s : State) (r : Response) : State := { s with response := r }

/-- The host's coming steps replaced. -/
def State.setPending (s : State) (p : List HostStep) : State := { s with pending := p }

/-- `raise BusError(off)` (R96): the access ends with an error response and changes nothing; a fault of the host
step. The block has no other exception entry (R100). -/
def raiseBusError (off : Offset) (cause : BusErrorCause) : Result := .fault (.busError off cause)

/-- The state in which the block takes the host's next access after a bus error (R96, R101): the access is over, the
block is as it was, and the host has its error response. There is no other return from an error (R101). -/
def State.afterBusError (s : State) (off : Offset) : State :=
  { s with pending := s.pending.tail, response := .busError off }

/-- Reset (R109, R110): every register at its reset value, the buffers unspecified anew (R111), whatever command it
abandons (R112); the host's coming steps stay. -/
def State.resetBlock (s : State) : State :=
  { State.reset with epoch := s.epoch + 1, pending := s.pending }

end Sys2Proof.Machine
end

