-- ==== Sys2Proof/Machine/Flags.lean ====
section
/-! DEFINITION. STATUS: the result codes (R19), the sticky error flag (R20) and the word the host reads (R18). -/

namespace Sys2Proof.Machine

/-- The numeric code of a result (R19). -/
def ResultCode.code : ResultCode → BitVec 4
  | .ok => 0x0
  | .frameTooShort => 0x1
  | .crcMismatch => 0x2
  | .unexpectedSlaveAddress => 0x3
  | .frameTooLong => 0x4
  | .lengthRange => 0x5
  | .illegalCommand => 0x6

/-- A code that is not OK is a failure (R20). -/
def ResultCode.failed (c : ResultCode) : Bool := c != .ok

/-- `result(code)` (R9, R92): RESULT takes the code, and ERR is set on a failure and never cleared. -/
def State.report (s : State) (c : ResultCode) : State :=
  { s with result := c, err := s.err || c.failed }

/-- `STATUS.ERR <- 0; STATUS.RESULT <- OK` (R91). -/
def State.clearStatus (s : State) : State := { s with result := .ok, err := false }

/-- The 32-bit STATUS word: RESULT in [3:0], ERR at bit 4 (R18, R41). -/
def State.statusWord (s : State) : Word :=
  (BitVec.ofBool s.err ++ s.result.code).setWidth 32

/-- A failed FRM.ENCODE records an empty frame and the code (R97). -/
def State.failEncode (s : State) (c : ResultCode) : State := (s.setTxflen 0).report c

/-- A failed FRM.VALIDATE records an empty PDU and the code (R97). -/
def State.failValidate (s : State) (c : ResultCode) : State := (s.setRxplen 0).report c

end Sys2Proof.Machine
end

