-- ==== Sys2Proof/Machine/Operands.lean ====
section
/-! DEFINITION. The places of the register window (R14, R37): which place an offset names, and what reading and
writing each place does (R41, R42). -/

namespace Sys2Proof.Machine

/-- A place of the window: a register, or one byte of a frame buffer (R37). -/
inductive Place where
  | reg (r : Reg)
  | txbuf (i : Nat)
  | rxbuf (i : Nat)
  deriving DecidableEq, Repr

/-- The offset of a register (R14). -/
def regOffset : Reg → Nat
  | .ctrl => 0x000
  | .cmd => 0x004
  | .status => 0x008
  | .crc => 0x00C
  | .crcw => 0x010
  | .txaddr => 0x014
  | .txlen => 0x018
  | .txflen => 0x01C
  | .rxlen => 0x020
  | .rxexp => 0x024
  | .rxplen => 0x028
  | .rxcrc => 0x02C

/-- The registers in the order of the map (R14). -/
def allRegs : List Reg :=
  [.ctrl, .cmd, .status, .crc, .crcw, .txaddr, .txlen, .txflen, .rxlen, .rxexp, .rxplen, .rxcrc]

/-- The place at an aligned offset, none where the window is unmapped (R37). -/
def mapOffset (off : Offset) : Option Place :=
  if off.toNat < 0x400 then (allRegs.find? (fun r => regOffset r == off.toNat)).map .reg
  else if off.toNat < 0x800 then some (.txbuf ((off.toNat - 0x400) / 4))
  else if off.toNat < 0xC00 then some (.rxbuf ((off.toNat - 0x800) / 4))
  else none

/-- The offset of a place (R14, R43). -/
def Place.offset : Place → Offset
  | .reg r => BitVec.ofNat 12 (regOffset r)
  | .txbuf i => BitVec.ofNat 12 (txOffset i)
  | .rxbuf i => BitVec.ofNat 12 (rxOffset i)

/-- The value of a register (R41): reserved bits read 0, CMD reads 0, CRCW is the swapped view of ACC (R22). -/
def State.readReg (s : State) : Reg → Word
  | .ctrl => (BitVec.ofBool s.achk).setWidth 32
  | .cmd => 0
  | .status => s.statusWord
  | .crc => s.acc.setWidth 32
  | .crcw => (swap16 s.acc).setWidth 32
  | .txaddr => s.txaddr.setWidth 32
  | .txlen => s.txlen.setWidth 32
  | .txflen => s.txflen.setWidth 32
  | .rxlen => s.rxlen.setWidth 32
  | .rxexp => s.rxexp.setWidth 32
  | .rxplen => s.rxplen.setWidth 32
  | .rxcrc => s.rxcrcRecv ++ s.rxcrcCalc

/-- The value of a place (R41, R43). -/
def State.readPlace (s : State) : Place → Word
  | .reg r => s.readReg r
  | .txbuf i => (s.txByte i).setWidth 32
  | .rxbuf i => (s.rxByte i).setWidth 32

/-- A register write other than a command (R42): only the implemented bits are kept, RO registers ignore it (R15).
A write to CMD stores nothing (R17); the command it gives is `executeCommand`'s. -/
def State.writeReg (s : State) (v : Word) : Reg → State
  | .ctrl => s.setAchk (v.getLsbD 0)
  | .cmd => s
  | .status => s
  | .crc => s
  | .crcw => s
  | .txaddr => s.setTxaddr (v.extractLsb' 0 8)
  | .txlen => s.setTxlen (v.extractLsb' 0 9)
  | .txflen => s
  | .rxlen => s.setRxlen (v.extractLsb' 0 9)
  | .rxexp => s.setRxexp (v.extractLsb' 0 8)
  | .rxplen => s
  | .rxcrc => s

/-- A write that stores (R42, R43): a buffer word keeps `v[7:0]`. -/
def State.writePlace (s : State) (v : Word) : Place → State
  | .reg r => s.writeReg v r
  | .txbuf i => s.writeTx i (v.extractLsb' 0 8)
  | .rxbuf i => s.writeRx i (v.extractLsb' 0 8)

end Sys2Proof.Machine
end

