-- ==== Sys2Proof/Machine/Crc.lean ====
section
/-! DEFINITION. The CRC16 engine: the functions of R71 and R72, and the commands CRC.INIT and CRC.BYTE. -/

namespace Sys2Proof.Machine

/-- One iteration of R71: the lowest bit is tested before the logical shift. -/
def crcShift (r : Half) : Half :=
  if r.getLsbD 0 then (r >>> 1) ^^^ Config.crcPoly else r >>> 1

/-- `n` iterations of R71. -/
def crcShifts : Nat → Half → Half
  | 0, r => r
  | n + 1, r => crcShifts n (crcShift r)

/-- `crc_step(r, b)` (R71). -/
def crcStep (r : Half) (b : Byte) : Half := crcShifts 8 (r ^^^ b.setWidth 16)

/-- `crc16(s)`, the raw accumulator (R72). -/
def crc16 (bytes : List Byte) : Half := bytes.foldl crcStep Config.crcInit

/-- CRC.INIT (R73). -/
def execCrcInit (s : State) : Result := .next ((s.setAcc Config.crcInit).report .ok)

/-- CRC.BYTE b (R74). -/
def execCrcByte (b : Byte) (s : State) : Result := .next ((s.setAcc (crcStep s.acc b)).report .ok)

end Sys2Proof.Machine
end

