-- ==== Sys2Proof/Machine/Framer.lean ====
section
/-! DEFINITION. The RTU framer: FRM.ENCODE (R77). -/

namespace Sys2Proof.Machine

/-- The frame bytes FRM.ENCODE stores for a PDU of `len` bytes: the address first, then the two bytes of the CRC over
address and PDU, low byte first (R62, R77). -/
def State.putFrame (s : State) (len : Nat) (r : Half) : State :=
  ((s.writeTx 0 s.txaddr).writeTx (len + 1) (lowByte r)).writeTx (len + 2) (highByte r)

/-- The CRC FRM.ENCODE computes: over TXBUF[0..len] after TXADDR is written to TXBUF[0] (R77). -/
def State.frameCrc (s : State) (len : Nat) : Half :=
  crc16 ((s.writeTx 0 s.txaddr).txBytes (len + 1))

/-- FRM.ENCODE (R77). -/
def execFrmEncode (s : State) : Result :=
  let len := s.txlen.toNat
  if len < 1 ∨ Config.maxPdu < len then .next (s.failEncode .lengthRange)
  else
    let r := s.frameCrc len
    .next ((((s.putFrame len r).setAcc r).setTxflen (BitVec.ofNat 9 (len + 3))).report .ok)

end Sys2Proof.Machine
end

