-- ==== Sys2Proof/Machine/Status.lean ====
section
/-! DEFINITION. STS.CLEAR (R91) and the illegal command (R93). -/

namespace Sys2Proof.Machine

/-- STS.CLEAR (R91). -/
def execStsClear (s : State) : Result := .next s.clearStatus

/-- An illegal command (R93): ILLEGAL_COMMAND is reported and nothing else changes. -/
def illegalCommand (s : State) : Result := .next (s.report .illegalCommand)

end Sys2Proof.Machine
end

