-- ==== Sys2Proof/Machine/Validator.lean ====
section
/-! DEFINITION. The RTU frame validator: FRM.VALIDATE (R80 to R86). -/

namespace Sys2Proof.Machine

/-- The CRC that FRM.VALIDATE computes over RXBUF[0..<n-2] (R80). -/
def State.computedCrc (s : State) (n : Nat) : Half := crc16 (s.rxBytes (n - 2))

/-- The CRC that an `n`-byte frame carries, `{RXBUF[n-1], RXBUF[n-2]}` (R29, R80). -/
def State.receivedCrc (s : State) (n : Nat) : Half := joinBytes (s.rxByte (n - 1)) (s.rxByte (n - 2))

/-- The address check of R85. -/
def State.addressRefused (s : State) : Bool := s.achk && s.rxByte 0 != s.rxexp

/-- FRM.VALIDATE (R80), its checks in the order of R81. -/
def execFrmValidate (s : State) : Result :=
  let n := s.rxlen.toNat
  if n < Config.minFrame then .next (s.failValidate .frameTooShort)
  else if Config.maxFrame < n then .next (s.failValidate .frameTooLong)
  else
    let r := s.computedCrc n
    let recv := s.receivedCrc n
    let s' := (s.setAcc r).setRxcrc r recv
    if r ≠ recv then .next (s'.failValidate .crcMismatch)
    else if s.addressRefused then .next (s'.failValidate .unexpectedSlaveAddress)
    else .next ((s'.setRxplen (BitVec.ofNat 9 (n - 3))).report .ok)

end Sys2Proof.Machine
end

