-- ==== Sys2Proof/Machine/Dispatch.lean ====
section
/-! DEFINITION. The meaning of each command (R64, R65), one arm per constructor. -/

namespace Sys2Proof.Machine

def exec (i : Instr) (s : State) : Host.Outcome State Fault Refusal :=
  match i with
  | .crcInit => Sys2Proof.Machine.execCrcInit s
  | .crcByte imm8 => Sys2Proof.Machine.execCrcByte imm8 s
  | .frmEncode => Sys2Proof.Machine.execFrmEncode s
  | .frmValidate => Sys2Proof.Machine.execFrmValidate s
  | .stsClear => Sys2Proof.Machine.execStsClear s

end Sys2Proof.Machine
end

