-- ==== Sys2Proof/Machine/Bus.lean ====
section
/-! DEFINITION. The host bus: the checks of an access (R38 to R40, R99), reads (R41), writes (R42), the command a
write to CMD gives (R64), and the steps of the two agents (R6). -/

namespace Sys2Proof.Machine

/-- An admitted read of a place of the window. -/
def Access.read32 (off : Offset) : Access := ⟨.bits32, 0b1111, off, .read⟩

/-- A 32-bit write with all four lanes. -/
def Access.write32 (off : Offset) (v : Word) : Access := ⟨.bits32, 0b1111, off, .write v⟩

/-- The access is 32 bits wide on all four lanes (R38). -/
def Access.fullWidth (a : Access) : Bool := a.width == .bits32 && a.lanes == 0b1111

/-- `off[1:0] = 0b00` (R39). -/
def Access.aligned (a : Access) : Bool := a.off.extractLsb' 0 2 == 0

/-- `execute_command(w)` (R64), one atomic transition (R44). -/
def executeCommand (w : Word) (s : State) : Result :=
  match decode w with
  | .command i => exec i s
  | .illegal _ => illegalCommand s

/-- `MemRead(off, 4)` of a mapped place (R41): the data goes to the host, and nothing else happens (R45). -/
def memRead (p : Place) (s : State) : Result := .next (s.respond (.readData (s.readPlace p)))

/-- `MemWrite(off, 4, v)` to a mapped place (R42). -/
def memWrite (p : Place) (v : Word) (s : State) : Result :=
  match p with
  | .reg .cmd => executeCommand v (s.respond .writeDone)
  | p => .next ((s.writePlace v p).respond .writeDone)

/-- One host access: width, alignment and mapping are checked in that order (R99), then it is performed. -/
def access (a : Access) (s : State) : Result :=
  if !a.fullWidth then raiseBusError a.off .width
  else if !a.aligned then raiseBusError a.off .misaligned
  else match mapOffset a.off with
    | none => raiseBusError a.off .unmapped
    | some p =>
      match a.op with
      | .read => memRead p s
      | .write v => memWrite p v s

/-- One step of an agent (R6). A held command that a reset abandons has no effect on any register (R112). -/
def hostStep (h : HostStep) (s : State) : Result :=
  match h with
  | .access a => access a s
  | .reset _ => .next s.resetBlock
  | .accessDuringReset a => .refused (.accessDuringReset a)

/-- The host step that writes a word to CMD (R69). -/
def cmdWrite (w : Word) : HostStep := .access (.write32 (Place.reg .cmd).offset w)

end Sys2Proof.Machine
end

