-- ==== Sys2Proof/Machine/Step.lean ====
section
/-! DEFINITION. One step of the model: the next step of the host's sequence (R6, R13). -/

namespace Sys2Proof.Machine

/-- The host's next step is taken from its sequence and performed; without one there is no step (R6). -/
def step (s : State) : Host.Outcome State Fault Refusal :=
  match s.pending with
  | [] => .refused .noHostStep
  | h :: rest => hostStep h (s.setPending rest)

/-- The state in which the host's next step writes the command word to CMD (log entry 3). -/
def State.withFetchWord (s : State) (nbits w : Nat) : State :=
  s.setPending (cmdWrite (tableWord nbits w) :: s.pending)

end Sys2Proof.Machine
end

