-- ==== Sys2Proof/Machine/Program.lean ====
section
/-! DEFINITION. Host programs (R13): a run that goes on after a bus error (R101), and the assembler (R69, R70). -/

namespace Sys2Proof.Machine

/-- `k` steps of a host that goes on after an error response (R96, R101): the failed access is over, the block is
unchanged. A refusal ends the run. -/
def runHost : Nat → State → Result
  | 0, s => .next s
  | k + 1, s =>
    match step s with
    | .next s' => runHost k s'
    | .fault (.busError off _) => runHost k (s.afterBusError off)
    | .refused r => .refused r

/-- The offset a target names (R69). -/
def asmOffset : AsmTarget → Offset
  | .reg r => (Place.reg r).offset
  | .txbuf i => (Place.txbuf i).offset
  | .rxbuf i => (Place.rxbuf i).offset
  | .offset n => BitVec.ofNat 12 n

/-- The access a basic statement makes (R69). The value a program expects of a read has no effect on the block. -/
def lineStep : AsmLine → HostStep
  | .w32 t v => .access (.write32 (asmOffset t) (BitVec.ofNat 32 v))
  | .r32 t _ => .access (.read32 (asmOffset t))

/-- `W32 CMD, w`, the expansion of a command mnemonic (R69). -/
def asmCommand (w : Nat) : AsmLine := .w32 (.reg .cmd) w

/-- `TXB i, b` (R70). -/
def asmTxb (i b : Nat) : AsmLine := .w32 (.offset (0x400 + 4 * i)) b

/-- `RXB i, b` (R70). -/
def asmRxb (i b : Nat) : AsmLine := .w32 (.offset (0x800 + 4 * i)) b

/-- One store per element of a list, the first at index `i` (R70). -/
def asmLoad (store : Nat → Nat → AsmLine) : Nat → List Nat → List AsmLine
  | _, [] => []
  | i, b :: bs => store i b :: asmLoad store (i + 1) bs

/-- The exact expansion of a statement (R69, R70). -/
def expandStmt : AsmStmt → List AsmLine
  | .line l => [l]
  | .crcInit => [asmCommand 1]
  | .crcByte imm8 => [asmCommand (2 ||| (imm8 <<< 8))]
  | .frmEncode => [asmCommand 3]
  | .frmValidate => [asmCommand 4]
  | .stsClear => [asmCommand 5]
  | .txb i b => [asmTxb i b]
  | .rxb i b => [asmRxb i b]
  | .crc16 bytes => asmCommand 1 :: bytes.map (fun b => asmCommand (2 ||| (b <<< 8)))
  | .txload a pdu => .w32 (.reg .txaddr) a :: (asmLoad asmTxb 1 pdu ++ [.w32 (.reg .txlen) pdu.length])
  | .rxload bytes => asmLoad asmRxb 0 bytes ++ [.w32 (.reg .rxlen) bytes.length]
  | .checkok => [.r32 (.reg .status) (some 0)]

/-- The host's sequence for a program; a program with a statement that spells a value out of range is refused (R69). -/
def assemble (program : List AsmStmt) : Option (List HostStep) :=
  if program.all AsmStmt.wf then some ((program.flatMap expandStmt).map lineStep) else none

/-- What a program states of a read it has just made (R69, R70): the bus returned the value. -/
def lineMet (l : AsmLine) (s : State) : Bool :=
  match l with
  | .r32 _ (some v) => decide (s.response = .readData (BitVec.ofNat 32 v))
  | .r32 _ none => true
  | .w32 _ _ => true

end Sys2Proof.Machine
end

