-- ==== Sys2Proof/Safety.lean ====
section
/-! DEFINITION. What claims are stated in: admitted accesses, the invariant of the state, and what two states share. -/

namespace Sys2Proof.Machine

/-- The offset holds a register or a buffer word (R37, column "content"), as numbers. -/
def mappedOffset (n : Nat) : Bool :=
  decide (n % 4 = 0 ∧ (n ≤ 0x02C ∨ (0x400 ≤ n ∧ n ≤ 0x7FC) ∨ (0x800 ≤ n ∧ n ≤ 0xBFC)))

/-- The access is one the window admits (R38 to R40). -/
def Access.admitted (a : Access) : Bool := a.fullWidth && mappedOffset a.off.toNat

/-- The step is one the host may take: an admitted access, or a reset. -/
def HostStep.admitted : HostStep → Bool
  | .access a => a.admitted
  | .reset _ => true
  | .accessDuringReset _ => false

/-- A safe run of `k` steps: no bus error and no refusal. -/
def State.SafeRun (s : State) (k : Nat) : Prop := ∃ t, Host.Core.run Sys2Proof.core k s = .next t

/-- The offset of a buffer word (R43). -/
def bufferOffset (a : Nat) : Bool := decide (a % 4 = 0 ∧ 0x400 ≤ a ∧ a < 0xC00)

/-- What every step keeps. -/
structure State.Inv (s : State) : Prop where
  /-- The buffers are in canonical form. -/
  memWf : s.mem.wf
  /-- Only buffer words are stored (R34, R37). -/
  memMapped : ∀ c ∈ s.mem, bufferOffset c.1 = true
  /-- A failure in RESULT is in the sticky flag too (R20). -/
  failureSticks : s.result ≠ .ok → s.err = true
  /-- TXFLEN is 0 or the length of a frame (R25). -/
  txflenRange : s.txflen = 0 ∨ (4 ≤ s.txflen.toNat ∧ s.txflen.toNat ≤ 256)
  /-- RXPLEN is 0 or the length of a PDU (R86). -/
  rxplenRange : s.rxplen.toNat ≤ 253
  /-- A validated PDU had the CRC it carried (R28, R86). -/
  rxplenChecked : s.rxplen ≠ 0 → s.rxcrcCalc = s.rxcrcRecv

/-- The two states hold the same block: every field of R34 and the draws of its unwritten bytes. -/
def SameBlock (s t : State) : Prop :=
  { s with pending := [], response := .none } = { t with pending := [], response := .none }

/-- The two states hold the same inputs: what only the host and reset write (R94). -/
structure SameInputs (s t : State) : Prop where
  achk : t.achk = s.achk
  txaddr : t.txaddr = s.txaddr
  txlen : t.txlen = s.txlen
  rxlen : t.rxlen = s.rxlen
  rxexp : t.rxexp = s.rxexp
  rxbuf : ∀ i, i < 256 → t.rxByte i = s.rxByte i

/-- The implemented bits of a register (R14); the others are reserved (R15). CMD has no storage. -/
def implementedBits : Reg → Word
  | .ctrl => 0x00000001
  | .cmd => 0x00000000
  | .status => 0x0000001F
  | .crc => 0x0000FFFF
  | .crcw => 0x0000FFFF
  | .txaddr => 0x000000FF
  | .txlen => 0x000001FF
  | .txflen => 0x000001FF
  | .rxlen => 0x000001FF
  | .rxexp => 0x000000FF
  | .rxplen => 0x000001FF
  | .rxcrc => 0xFFFFFFFF

/-- The word a host step writes to CMD, if it is a write to CMD (R17, R44); whether the bus admits it is `admitted`. -/
def HostStep.commandWord : HostStep → Option Word
  | .access ⟨_, _, off, .write w⟩ => if off = 0x004 then some w else none
  | .access ⟨_, _, _, .read⟩ => none
  | .reset _ => none
  | .accessDuringReset _ => none

/-- The byte that a command word folds into the streaming CRC, if it is a CRC.BYTE (R74, R75). -/
def streamedByte (w : Word) : Option Byte :=
  match decode w with
  | .command (.crcByte b) => some b
  | .command .crcInit => none
  | .command .frmEncode => none
  | .command .frmValidate => none
  | .command .stsClear => none
  | .illegal _ => none

/-- A frame is CRC-valid (R61): its last two bytes, low byte first, are the CRC of the others. -/
def crcValid (frame : List Byte) : Prop :=
  ∃ m lo hi, frame = m ++ [lo, hi] ∧ joinBytes hi lo = crc16 m

end Sys2Proof.Machine
end

