-- ==== Sys2Proof/Certificates/Slice0/Obligations.lean ====
section
/-! DEFINITION. The statements for the provers, from the numbered rules of spec/. -/

open Sys2Proof Sys2Proof.Machine

/- Encodings -/

/-- Words written out from the opcode map (R65) and from R93's and section 95's illegal words decode to what they stand
for; the names of the illegal cases are the model's (log entry 9). -/
def Obligations.OpcodeWordsDecode : Prop :=
  decode 0x00000001 = .command .crcInit ∧
  decode 0x00000102 = .command (.crcByte 0x01) ∧
  decode 0x0000FF02 = .command (.crcByte 0xFF) ∧
  decode 0x00000003 = .command .frmEncode ∧
  decode 0x00000004 = .command .frmValidate ∧
  decode 0x00000005 = .command .stsClear ∧
  decode 0x00000000 = .illegal .opcode ∧
  decode 0x00000006 = .illegal .opcode ∧
  decode 0x0000000F = .illegal .opcode ∧
  decode 0x00000103 = .illegal .immediate ∧
  decode 0x00010102 = .illegal .reservedBits ∧
  decode 0x00000012 = .illegal .reservedBits

/-- Decoding and encoding agree on every word and every command: no bit of an encoding is dropped, and each command
has exactly one word (R63 to R65). -/
def Obligations.DecodeEncodeAgree : Prop :=
  ∀ (w : Word) (i : Instr), decode w = .command i ↔ encode i = w

/-- A word that a row of the opcode map covers is that row's command, and a word no row covers is illegal (R65); so no
two rows cover one word. -/
def Obligations.OpcodeMapDecidesEveryWord : Prop :=
  ∀ w : Word,
    (∀ r ∈ opcodeRows, r.covers w = true → ∃ i, decode w = .command i ∧ i.mnemonic = r.mnemonic) ∧
    ((∀ r ∈ opcodeRows, r.covers w = false) → ∃ why, decode w = .illegal why)

/-- R67, R93: exactly the words with a bad OP, a set reserved bit, or an IMM8 outside CRC.BYTE are illegal; writing one
to CMD reports ILLEGAL_COMMAND, completes, and changes nothing else of the block; the completion stands in `response`,
the model's field (log entry 4). -/
def Obligations.IllegalWordsOnlyReport : Prop :=
  ∀ w : Word,
    ((∃ why, decode w = .illegal why) ↔
      (w.extractLsb' 0 4 = 0 ∨ 6 ≤ (w.extractLsb' 0 4).toNat ∨ w.extractLsb' 4 4 ≠ 0 ∨ w.extractLsb' 16 16 ≠ 0 ∨
        (w.extractLsb' 8 8 ≠ 0 ∧ w.extractLsb' 0 4 ≠ 2))) ∧
    ∀ why, decode w = .illegal why → ∀ s : State,
      executeCommand w s = .next { s with result := .illegalCommand, err := true } ∧
      access (.write32 0x004 w) s =
        .next { s with result := .illegalCommand, err := true, response := .writeDone }

/- The CRC16 engine -/

/-- R71: one XOR into the low byte, then eight iterations that test bit 0 before a logical shift. -/
def Obligations.CrcStepIsEightShifts : Prop :=
  ∀ (r : Half) (b : Byte), crcStep r b =
    (fun x : Half => if x.getLsbD 0 = true then (x >>> 1) ^^^ 0xA001#16 else x >>> 1)^[8] (r ^^^ b.setWidth 16)

/-- R72: the fold from 0xFFFF, its reference value, and the swapped value that CRCW shows. -/
def Obligations.CrcOfBytesFoldsFromFFFF : Prop :=
  crc16 [] = 0xFFFF ∧
  (∀ (m : List Byte) (b : Byte), crc16 (m ++ [b]) = crcStep (crc16 m) b) ∧
  crc16 [0x01, 0x03, 0x00, 0x00, 0x00, 0x0A] = 0xCDC5 ∧
  (0xCDC5 : Half).extractLsb' 0 8 ++ (0xCDC5 : Half).extractLsb' 8 8 = (0xC5CD : Half) ∧
  (∀ (s : State) (m : List Byte), s.acc = crc16 m →
    s.readReg .crcw = ((crc16 m).extractLsb' 0 8 ++ (crc16 m).extractLsb' 8 8).setWidth 32)

/-- R73 CRC.INIT: the result, the frame and what CRC and CRCW then read. -/
def Obligations.CrcInitStartsAStream : Prop :=
  decode 0x00000001 = .command .crcInit ∧
  ∀ s : State,
    exec .crcInit s = .next { s with acc := 0xFFFF, result := .ok } ∧
    ({ s with acc := 0xFFFF, result := .ok } : State).readReg .crc = 0x0000FFFF ∧
    ({ s with acc := 0xFFFF, result := .ok } : State).readReg .crcw = 0x0000FFFF

/-- R74 CRC.BYTE: every word of its row, the result and the frame, its illegal neighbours, and its corner values. -/
def Obligations.CrcByteFoldsOneByte : Prop :=
  (∀ w : Word, w &&& 0xFFFF00FF = 0x00000002 → decode w = .command (.crcByte (w.extractLsb' 8 8))) ∧
  (∀ (b : Byte) (s : State),
    exec (.crcByte b) s = .next { s with acc := crcStep s.acc b, result := .ok }) ∧
  (∀ (w : Word) (s : State), w.extractLsb' 0 4 = 2 → (w.extractLsb' 4 4 ≠ 0 ∨ w.extractLsb' 16 16 ≠ 0) →
    executeCommand w s = .next { s with result := .illegalCommand, err := true }) ∧
  crcStep 0xFFFF 0x00 = 0x40BF ∧ crcStep 0x0000 0x00 = 0x0000 ∧ crcStep 0xFFFF 0x01 = 0x807E

/-- R76 laws 1 to 3, marked derived by the spec: the accumulator is all that is carried, `crc_step` is linear in both
arguments together, and the shift loop is a bijection. -/
def Obligations.CrcStepIsLinearAndInvertible : Prop :=
  (∀ m n : List Byte, crc16 (m ++ n) = n.foldl crcStep (crc16 m)) ∧
  (∀ (r₁ r₂ : Half) (b₁ b₂ : Byte), crcStep (r₁ ^^^ r₂) (b₁ ^^^ b₂) = crcStep r₁ b₁ ^^^ crcStep r₂ b₂) ∧
  crcStep 0 0 = 0 ∧
  Function.Bijective (fun r : Half => crcStep r 0) ∧
  (∀ (r : Half) (b : Byte), crcStep r b = crcStep (r ^^^ b.setWidth 16) 0)

/-- R76 law 4, marked derived by the spec: the CRC over a CRC-valid frame with its own CRC bytes is zero. -/
def Obligations.CrcResidueIsZero : Prop :=
  ∀ m : List Byte, crc16 (m ++ [(crc16 m).extractLsb' 0 8, (crc16 m).extractLsb' 8 8]) = 0

/-- 93 G2: the table-driven form equals `crc_step` on every input, with the table's sample entries. -/
def Obligations.TableDrivenFormAgrees : Prop :=
  (∀ (r : Half) (b : Byte), crcStep r b = (r >>> 8) ^^^ crcStep 0 (r.extractLsb' 0 8 ^^^ b)) ∧
  crcStep 0 0x01 = 0xC0C1 ∧ crcStep 0 0x02 = 0xC181 ∧ crcStep 0 0x80 = 0xA001 ∧ crcStep 0 0xFF = 0x4040

/-- R75, marked derived by the spec: a stream of admitted accesses that starts with CRC.INIT and holds no further
CRC.INIT, no FRM.ENCODE, no FRM.VALIDATE and no reset ends with CRC and CRCW reading the CRC of the bytes it folded;
reads, writes to other places, illegal commands and STS.CLEAR in between do not disturb it (the stream stands in
`pending`, log entry 3). -/
def Obligations.StreamingEqualsCrc16 : Prop :=
  ∀ (s : State) (stream rest : List HostStep),
    s.pending = cmdWrite 0x00000001 :: stream ++ rest →
    (∀ h ∈ stream, ∃ a, h = .access a ∧ a.admitted = true) →
    (∀ h ∈ stream, ∀ w, h.commandWord = some w →
      decode w ≠ .command .crcInit ∧ decode w ≠ .command .frmEncode ∧ decode w ≠ .command .frmValidate) →
    ∃ t, Host.Core.run Sys2Proof.core (stream.length + 1) s = .next t ∧ t.pending = rest ∧
      t.readReg .crc = (crc16 ((stream.filterMap HostStep.commandWord).filterMap streamedByte)).setWidth 32 ∧
      t.readReg .crcw =
        (swap16 (crc16 ((stream.filterMap HostStep.commandWord).filterMap streamedByte))).setWidth 32

/- The framer -/

/-- R77 FRM.ENCODE: on a length outside 1..253 only TXFLEN, RESULT and ERR change; on any other length the address, the
PDU as it stood and the CRC, low byte first, stand in TXBUF, every other byte of memory reads as before, ACC and TXFLEN
take the frame's CRC and length, and no other register changes. -/
def Obligations.EncodeAssemblesFrame : Prop :=
  decode 0x00000003 = .command .frmEncode ∧
  ∀ s : State,
    ((s.txlen.toNat < 1 ∨ 253 < s.txlen.toNat) →
      exec .frmEncode s = .next { s with txflen := 0, result := .lengthRange, err := true }) ∧
    ∀ (len : Nat) (r : Half), len = s.txlen.toNat → 1 ≤ len → len ≤ 253 →
      r = crc16 (s.txaddr :: (List.range len).map (fun i => s.txByte (i + 1))) →
      ∃ m : Memory,
        exec .frmEncode s =
          .next { s with mem := m, acc := r, txflen := BitVec.ofNat 9 (len + 3), result := .ok } ∧
        ({ s with mem := m } : State).txByte 0 = s.txaddr ∧
        ({ s with mem := m } : State).txByte (len + 1) = r.extractLsb' 0 8 ∧
        ({ s with mem := m } : State).txByte (len + 2) = r.extractLsb' 8 8 ∧
        ∀ a, a ≠ txOffset 0 → a ≠ txOffset (len + 1) → a ≠ txOffset (len + 2) →
          ({ s with mem := m } : State).byteAt a = s.byteAt a

/-- R78: the frame length depends on TXLEN alone; a 9-byte PDU gives a 12-byte frame. -/
def Obligations.FrameLengthFollowsTxlen : Prop :=
  (∀ s : State, 1 ≤ s.txlen.toNat → s.txlen.toNat ≤ 253 →
    ∃ t, exec .frmEncode s = .next t ∧ t.txflen.toNat = s.txlen.toNat + 3) ∧
  (∀ s : State, s.txlen = 9 → ∃ t, exec .frmEncode s = .next t ∧ t.txflen = 12)

/-- R77, corner cases: running FRM.ENCODE again at once changes nothing at all, whether it succeeded or not; R80: nor
does running FRM.VALIDATE again. -/
def Obligations.EncodeAndValidateAreIdempotent : Prop :=
  ∀ s t : State,
    (exec .frmEncode s = .next t → exec .frmEncode t = .next t) ∧
    (exec .frmValidate s = .next t → exec .frmValidate t = .next t)

/-- R77: a frame depends on TXADDR, TXLEN and TXBUF[1..L] alone: two states that agree on these get the same frame,
length, CRC and result. -/
def Obligations.EncodeReadsOnlyItsInputs : Prop :=
  ∀ s u : State, u.txaddr = s.txaddr → u.txlen = s.txlen →
    (∀ i, 1 ≤ i → i ≤ s.txlen.toNat → u.txByte i = s.txByte i) →
    ∃ t v, exec .frmEncode s = .next t ∧ exec .frmEncode u = .next v ∧
      v.result = t.result ∧ v.txflen = t.txflen ∧
      (t.result = .ok → v.acc = t.acc ∧ ∀ i, i < t.txflen.toNat → v.txByte i = t.txByte i)

/- The validator -/

/-- R80 FRM.VALIDATE: the next state on every path, in the order of its checks. -/
def Obligations.ValidateRunsItsChecksInOrder : Prop :=
  decode 0x00000004 = .command .frmValidate ∧
  ∀ (s : State) (n : Nat) (r recv : Half), n = s.rxlen.toNat →
    r = crc16 ((List.range (n - 2)).map s.rxByte) → recv = s.rxByte (n - 1) ++ s.rxByte (n - 2) →
    exec .frmValidate s = .next (
      if n < 4 then { s with rxplen := 0, result := .frameTooShort, err := true }
      else if 256 < n then { s with rxplen := 0, result := .frameTooLong, err := true }
      else if r ≠ recv then
        { s with acc := r, rxcrcCalc := r, rxcrcRecv := recv, rxplen := 0, result := .crcMismatch, err := true }
      else if s.achk = true ∧ s.rxByte 0 ≠ s.rxexp then
        { s with acc := r, rxcrcCalc := r, rxcrcRecv := recv, rxplen := 0, result := .unexpectedSlaveAddress,
                 err := true }
      else
        { s with acc := r, rxcrcCalc := r, rxcrcRecv := recv, rxplen := BitVec.ofNat 9 (n - 3), result := .ok })

/-- R82, R83: FRAME_TOO_SHORT and FRAME_TOO_LONG are reported exactly on their lengths, whatever RXBUF holds, with no
CRC computed. -/
def Obligations.ValidateReportsLengthsExactly : Prop :=
  ∀ s : State, ∃ t, exec .frmValidate s = .next t ∧
    (t.result = .frameTooShort ↔ s.rxlen.toNat < 4) ∧
    (t.result = .frameTooLong ↔ 256 < s.rxlen.toNat) ∧
    ((s.rxlen.toNat < 4 ∨ 256 < s.rxlen.toNat) →
      t.acc = s.acc ∧ t.rxcrcCalc = s.rxcrcCalc ∧ t.rxcrcRecv = s.rxcrcRecv ∧ t.rxplen = 0)

/-- R84, R85: CRC_MISMATCH exactly when the length is right and the CRC is not; UNEXPECTED_SLAVE_ADDRESS exactly when
the CRC is right, ACHK is 1 and the address differs; the CRC step writes ACC and RXCRC whichever way it goes. -/
def Obligations.ValidateReportsCrcAndAddressExactly : Prop :=
  ∀ (s : State) (n : Nat) (r recv : Half), n = s.rxlen.toNat →
    r = crc16 ((List.range (n - 2)).map s.rxByte) → recv = s.rxByte (n - 1) ++ s.rxByte (n - 2) →
    ∃ t, exec .frmValidate s = .next t ∧
      (t.result = .crcMismatch ↔ 4 ≤ n ∧ n ≤ 256 ∧ r ≠ recv) ∧
      (t.result = .unexpectedSlaveAddress ↔
        4 ≤ n ∧ n ≤ 256 ∧ r = recv ∧ s.achk = true ∧ s.rxByte 0 ≠ s.rxexp) ∧
      (4 ≤ n → n ≤ 256 → t.acc = r ∧ t.rxcrcCalc = r ∧ t.rxcrcRecv = recv)

/-- R86: what a validated frame leaves, and that RXPLEN is nonzero only after OK. -/
def Obligations.ValidateOkLeavesThePdu : Prop :=
  ∀ s : State, ∃ t, exec .frmValidate s = .next t ∧
    (t.rxplen ≠ 0 ↔ t.result = .ok) ∧
    (t.result = .ok →
      t.rxplen.toNat + 3 = s.rxlen.toNat ∧ 1 ≤ t.rxplen.toNat ∧ t.rxplen.toNat ≤ 253 ∧
      t.acc = crc16 ((List.range (s.rxlen.toNat - 2)).map s.rxByte) ∧
      t.rxcrcCalc = t.acc ∧ t.rxcrcRecv = t.acc)

/-- R80 ("Bytes at RXBUF[N..255] are never read"): the outcome depends on CTRL, RXLEN, RXEXP and RXBUF[0..<N] alone; no
byte of TXBUF, no old register and no unwritten byte beyond N tells in it. -/
def Obligations.ValidateReadsOnlyItsInputs : Prop :=
  ∀ s u : State, u.achk = s.achk → u.rxlen = s.rxlen → u.rxexp = s.rxexp →
    (∀ i, i < s.rxlen.toNat → i < 256 → u.rxByte i = s.rxByte i) →
    ∃ t v, exec .frmValidate s = .next t ∧ exec .frmValidate u = .next v ∧
      v.result = t.result ∧ v.rxplen = t.rxplen ∧
      (4 ≤ s.rxlen.toNat → s.rxlen.toNat ≤ 256 →
        v.acc = t.acc ∧ v.rxcrcCalc = t.rxcrcCalc ∧ v.rxcrcRecv = t.rxcrcRecv)

/-- R79, marked derived by the spec: a frame FRM.ENCODE built is CRC-valid (R61), and copied into the receive buffer of
any state it validates, with the PDU it was built from. -/
def Obligations.EncodedFrameValidates : Prop :=
  ∀ s : State, 1 ≤ s.txlen.toNat → s.txlen.toNat ≤ 253 →
    ∃ t, exec .frmEncode s = .next t ∧ crcValid (t.txBytes t.txflen.toNat) ∧
      ∀ u : State, u.rxlen = t.txflen → (∀ i, i < t.txflen.toNat → u.rxByte i = t.txByte i) →
        (u.rxexp = s.txaddr ∨ u.achk = false) →
        ∃ v, exec .frmValidate u = .next v ∧ v.result = .ok ∧ v.rxplen = s.txlen ∧
          ∀ i, 1 ≤ i → i ≤ v.rxplen.toNat → v.rxByte i = s.txByte i

/-- R89, marked derived by the spec: flip exactly one bit of a frame that validates, in any of its bytes, and
FRM.VALIDATE reports CRC_MISMATCH, whatever ACHK is. -/
def Obligations.EverySingleBitFlipIsCaught : Prop :=
  ∀ (s t : State) (k j : Nat) (achk : Bool),
    exec .frmValidate s = .next t → t.result = .ok → k < s.rxlen.toNat → j < 8 →
    ∃ u, exec .frmValidate ((s.writeRx k (s.rxByte k ^^^ (1#8 <<< j))).setAchk achk) = .next u ∧
      u.result = .crcMismatch

/-- R90, marked derived by the spec: the CRC check passes exactly when the CRC over the whole frame is zero. -/
def Obligations.ResidueTestIsEquivalent : Prop :=
  ∀ s : State, 4 ≤ s.rxlen.toNat → s.rxlen.toNat ≤ 256 →
    (crc16 ((List.range (s.rxlen.toNat - 2)).map s.rxByte) =
        s.rxByte (s.rxlen.toNat - 1) ++ s.rxByte (s.rxlen.toNat - 2) ↔
      crc16 ((List.range s.rxlen.toNat).map s.rxByte) = 0)

/- Status and the frame of every command -/

/-- R91 STS.CLEAR: RESULT and ERR, and nothing else. -/
def Obligations.StsClearClearsStatusOnly : Prop :=
  decode 0x00000005 = .command .stsClear ∧
  ∀ s : State, exec .stsClear s = .next { s with result := .ok, err := false }

/-- R19: the seven codes as numbers, each distinct. -/
def Obligations.ResultCodesAreDistinct : Prop :=
  ResultCode.ok.code = 0x0 ∧ ResultCode.frameTooShort.code = 0x1 ∧ ResultCode.crcMismatch.code = 0x2 ∧
  ResultCode.unexpectedSlaveAddress.code = 0x3 ∧ ResultCode.frameTooLong.code = 0x4 ∧
  ResultCode.lengthRange.code = 0x5 ∧ ResultCode.illegalCommand.code = 0x6 ∧
  ∀ c d : ResultCode, c.code = d.code → c = d

/-- R92: every command, legal or illegal, completes and writes RESULT whatever it was before; ERR is kept or set by all but STS.CLEAR; a host access
that is no CMD write leaves STATUS alone. -/
def Obligations.EveryCommandReports : Prop :=
  (∀ (w : Word) (s : State), ∃ t, executeCommand w s = .next t ∧
    (∀ c : ResultCode, executeCommand w { s with result := c } = .next t) ∧
    (decode w = .command .stsClear → t.result = .ok ∧ t.err = false) ∧
    (decode w ≠ .command .stsClear → (t.err = true ↔ s.err = true ∨ t.result ≠ .ok))) ∧
  (∀ (a : Access) (s t : State), access a s = .next t → (a.off ≠ 0x004 ∨ a.op = .read) →
    t.result = s.result ∧ t.err = s.err)

/-- R20: after a sequence of admitted accesses with no STS.CLEAR and no reset, started with ERR = 0, ERR is 1 exactly
when at least one of its commands failed (the sequence stands in `pending`, log entry 3). -/
def Obligations.ErrorFlagRemembersAnyFailure : Prop :=
  ∀ (s : State) (seq rest : List HostStep), s.err = false → s.pending = seq ++ rest →
    (∀ h ∈ seq, ∃ a, h = .access a ∧ a.admitted = true) →
    (∀ h ∈ seq, ∀ w, h.commandWord = some w → decode w ≠ .command .stsClear) →
    ∃ t, Host.Core.run Sys2Proof.core seq.length s = .next t ∧ t.pending = rest ∧
      (t.err = true ↔ ∃ (k : Nat) (h : HostStep) (w : Word) (u : State), seq[k]? = some h ∧
        h.commandWord = some w ∧ Host.Core.run Sys2Proof.core (k + 1) s = .next u ∧ u.result ≠ .ok)

/-- R94, marked derived by the spec: what each command may write, and that nothing else changes, the model's own fields
(log entries 2 to 4) included; no command writes an input. -/
def Obligations.CommandsWriteOnlyTheirRow : Prop :=
  ∀ (i : Instr) (s : State), ∃ t, exec i s = .next t ∧ SameInputs s t ∧
    t.epoch = s.epoch ∧ t.pending = s.pending ∧ t.response = s.response ∧
    (i ≠ .frmEncode → (∀ a, t.byteAt a = s.byteAt a) ∧ t.txflen = s.txflen) ∧
    (i ≠ .frmValidate → t.rxplen = s.rxplen ∧ t.rxcrcCalc = s.rxcrcCalc ∧ t.rxcrcRecv = s.rxcrcRecv) ∧
    (i = .stsClear → t.acc = s.acc) ∧
    (i = .frmEncode → ∀ a, a ≠ txOffset 0 → a ≠ txOffset (s.txlen.toNat + 1) →
      a ≠ txOffset (s.txlen.toNat + 2) → t.byteAt a = s.byteAt a)

/-- R97, with R100 (errors are precise): every failing command was caused by what its row of the table names and
records exactly what the row says; `r` is the CRC computed over RXBUF[0..<n-2], `recv` the one the frame carries. -/
def Obligations.FailuresRecordTheirRow : Prop :=
  ∀ (w : Word) (s t : State) (n : Nat) (r recv : Half), n = s.rxlen.toNat →
    r = crc16 ((List.range (n - 2)).map s.rxByte) → recv = s.rxByte (n - 1) ++ s.rxByte (n - 2) →
    executeCommand w s = .next t →
    (t.result = .frameTooShort → decode w = .command .frmValidate ∧ n < 4 ∧
      t = { s with rxplen := 0, result := .frameTooShort, err := true }) ∧
    (t.result = .crcMismatch → decode w = .command .frmValidate ∧ 4 ≤ n ∧ n ≤ 256 ∧ r ≠ recv ∧
      t = { s with acc := r, rxcrcCalc := r, rxcrcRecv := recv, rxplen := 0, result := .crcMismatch,
                   err := true }) ∧
    (t.result = .unexpectedSlaveAddress → decode w = .command .frmValidate ∧ 4 ≤ n ∧ n ≤ 256 ∧ r = recv ∧
      s.achk = true ∧ s.rxByte 0 ≠ s.rxexp ∧
      t = { s with acc := r, rxcrcCalc := r, rxcrcRecv := recv, rxplen := 0,
                   result := .unexpectedSlaveAddress, err := true }) ∧
    (t.result = .frameTooLong → decode w = .command .frmValidate ∧ 256 < n ∧
      t = { s with rxplen := 0, result := .frameTooLong, err := true }) ∧
    (t.result = .lengthRange → decode w = .command .frmEncode ∧ (s.txlen = 0 ∨ 253 < s.txlen.toNat) ∧
      t = { s with txflen := 0, result := .lengthRange, err := true }) ∧
    (t.result = .illegalCommand → (∃ why, decode w = .illegal why) ∧
      t = { s with result := .illegalCommand, err := true })

/-- R114: a command that fails before computing a CRC, STS.CLEAR and an illegal command leave ACC unchanged; a
FRM.ENCODE that succeeds, or a FRM.VALIDATE that reaches its CRC step, in the middle of a stream makes the next
CRC.BYTE continue from the frame's CRC, whatever the stream's was. -/
def Obligations.SharedAccumulatorHazard : Prop :=
  (∀ (w : Word) (s t : State), executeCommand w s = .next t →
    (t.result = .frameTooShort ∨ t.result = .frameTooLong ∨ t.result = .lengthRange ∨
      t.result = .illegalCommand ∨ decode w = .command .stsClear) → t.acc = s.acc) ∧
  (∀ (s : State) (b : Byte), 1 ≤ s.txlen.toNat → s.txlen.toNat ≤ 253 →
    ∃ t u, exec .frmEncode s = .next t ∧ exec (.crcByte b) t = .next u ∧
      u.acc = crcStep (crc16 (s.txaddr :: (List.range s.txlen.toNat).map (fun i => s.txByte (i + 1)))) b) ∧
  (∀ (s : State) (b : Byte), 4 ≤ s.rxlen.toNat → s.rxlen.toNat ≤ 256 →
    ∃ t u, exec .frmValidate s = .next t ∧ exec (.crcByte b) t = .next u ∧
      u.acc = crcStep (crc16 ((List.range (s.rxlen.toNat - 2)).map s.rxByte)) b)

/- The host bus -/

/-- R38, R39, R40: an access ends with a bus error exactly when it is not 32 bits on four lanes, is misaligned, or
names an unmapped offset; every other access completes; the block is unchanged by a bus error, in the form of log
entry 1. -/
def Obligations.BusErrorsExactly : Prop :=
  ∀ (a : Access) (s : State),
    ((∃ c, access a s = .fault (.busError a.off c)) ↔
      (a.width ≠ .bits32 ∨ a.lanes ≠ 0b1111 ∨ a.off.toNat % 4 ≠ 0 ∨
        (0x02C < a.off.toNat ∧ a.off.toNat < 0x400) ∨ 0xC00 ≤ a.off.toNat)) ∧
    ((∃ t, access a s = .next t) ∨ ∃ c, access a s = .fault (.busError a.off c)) ∧
    SameBlock s (s.afterBusError a.off)

/-- R99: the bus checks come first, width, then alignment, then mapping, and a refused CMD write performs no
command. The cause is the model's label (log entry 1). -/
def Obligations.BusChecksAreOrdered : Prop :=
  ∀ (a : Access) (s : State),
    ((a.width ≠ .bits32 ∨ a.lanes ≠ 0b1111) → access a s = .fault (.busError a.off .width)) ∧
    (a.width = .bits32 → a.lanes = 0b1111 → a.off.toNat % 4 ≠ 0 →
      access a s = .fault (.busError a.off .misaligned)) ∧
    (a.width = .bits32 → a.lanes = 0b1111 → a.off.toNat % 4 = 0 → mappedOffset a.off.toNat = false →
      access a s = .fault (.busError a.off .unmapped))

/-- R96, R101, in the form of log entries 1 and 4: after a bus error the host may go on with its next access, on the same
block. -/
def Obligations.HostGoesOnAfterBusError : Prop :=
  ∀ (s : State) (a : Access) (rest : List HostStep) (k : Nat),
    s.pending = .access a :: rest → a.admitted = false →
    (∃ c, step s = .fault (.busError a.off c)) ∧
    ∃ u, runHost (k + 1) s = runHost k u ∧ SameBlock s u ∧ u.pending = rest ∧ u.response = .busError a.off

/-- R41: what a 32-bit aligned read returns, register by register and buffer word by buffer word (the data stands in
`response`, log entry 4). -/
def Obligations.ReadsReturnTheMap : Prop :=
  ∀ s : State,
    access (.read32 0x000) s = .next { s with response := .readData (if s.achk = true then 1 else 0) } ∧
    access (.read32 0x004) s = .next { s with response := .readData 0x00000000 } ∧
    access (.read32 0x008) s =
      .next { s with response := .readData ((BitVec.ofBool s.err ++ s.result.code).setWidth 32) } ∧
    access (.read32 0x00C) s = .next { s with response := .readData (s.acc.setWidth 32) } ∧
    access (.read32 0x010) s =
      .next { s with response := .readData ((s.acc.extractLsb' 0 8 ++ s.acc.extractLsb' 8 8).setWidth 32) } ∧
    access (.read32 0x014) s = .next { s with response := .readData (s.txaddr.setWidth 32) } ∧
    access (.read32 0x018) s = .next { s with response := .readData (s.txlen.setWidth 32) } ∧
    access (.read32 0x01C) s = .next { s with response := .readData (s.txflen.setWidth 32) } ∧
    access (.read32 0x020) s = .next { s with response := .readData (s.rxlen.setWidth 32) } ∧
    access (.read32 0x024) s = .next { s with response := .readData (s.rxexp.setWidth 32) } ∧
    access (.read32 0x028) s = .next { s with response := .readData (s.rxplen.setWidth 32) } ∧
    access (.read32 0x02C) s = .next { s with response := .readData (s.rxcrcRecv ++ s.rxcrcCalc) } ∧
    (∀ i, i < 256 → access (.read32 (BitVec.ofNat 12 (0x400 + 4 * i))) s =
      .next { s with response := .readData ((s.txByte i).setWidth 32) }) ∧
    (∀ i, i < 256 → access (.read32 (BitVec.ofNat 12 (0x800 + 4 * i))) s =
      .next { s with response := .readData ((s.rxByte i).setWidth 32) }) ∧
    (∀ a : Access, a.op = .read → a.admitted = false → ∃ c, access a s = .fault (.busError a.off c))

/-- R42: what a 32-bit aligned write does, offset by offset (its completion stands in `response`, log entry 4). -/
def Obligations.WritesFollowTheMap : Prop :=
  ∀ (s : State) (v : Word),
    access (.write32 0x000 v) s = .next { s with achk := v.getLsbD 0, response := .writeDone } ∧
    access (.write32 0x004 v) s = executeCommand v { s with response := .writeDone } ∧
    (∀ off ∈ [0x008#12, 0x00C#12, 0x010#12, 0x01C#12, 0x028#12, 0x02C#12],
      access (.write32 off v) s = .next { s with response := .writeDone }) ∧
    access (.write32 0x014 v) s = .next { s with txaddr := v.extractLsb' 0 8, response := .writeDone } ∧
    access (.write32 0x018 v) s = .next { s with txlen := v.extractLsb' 0 9, response := .writeDone } ∧
    access (.write32 0x020 v) s = .next { s with rxlen := v.extractLsb' 0 9, response := .writeDone } ∧
    access (.write32 0x024 v) s = .next { s with rxexp := v.extractLsb' 0 8, response := .writeDone } ∧
    (∀ (base i : Nat), (base = 0x400 ∨ base = 0x800) → i < 256 →
      ∃ m : Memory, access (.write32 (BitVec.ofNat 12 (base + 4 * i)) v) s =
          .next { s with mem := m, response := .writeDone } ∧
        ({ s with mem := m } : State).byteAt (base + 4 * i) = v.extractLsb' 0 8 ∧
        ∀ a, a ≠ base + 4 * i → ({ s with mem := m } : State).byteAt a = s.byteAt a) ∧
    (∀ a : Access, a.op = .write v → a.admitted = false → ∃ c, access a s = .fault (.busError a.off c))

/-- R43: a buffer word keeps the low byte of what is written to it and reads it back zero-extended, and no other word of
either buffer is touched (the data read stands in `response`, log entry 4). -/
def Obligations.BufferWordHoldsOneByte : Prop :=
  ∀ (s : State) (v : Word) (base i : Nat), (base = 0x400 ∨ base = 0x800) → i < 256 →
    ∃ t, access (.write32 (BitVec.ofNat 12 (base + 4 * i)) v) s = .next t ∧
      (∃ u, access (.read32 (BitVec.ofNat 12 (base + 4 * i))) t = .next u ∧
        u.response = .readData ((v.extractLsb' 0 8).setWidth 32)) ∧
      (∀ j, j < 256 → base + 4 * i ≠ 0x400 + 4 * j → t.txByte j = s.txByte j) ∧
      (∀ j, j < 256 → base + 4 * i ≠ 0x800 + 4 * j → t.rxByte j = s.rxByte j)

/-- R15: the reserved bits of registers and buffer words read as 0, a write ignores what is written to them, and a
read-only register ignores every write. CMD is the exception R15 names. The data read and the completion stand in
`response` (log entry 4). -/
def Obligations.ReservedBitsReadZero : Prop :=
  (∀ (s : State) (r : Reg), s.readReg r &&& ~~~implementedBits r = 0) ∧
  (∀ (s : State) (r : Reg) (v v' : Word), r ≠ .cmd →
    v &&& implementedBits r = v' &&& implementedBits r →
    access (.write32 (BitVec.ofNat 12 (regOffset r)) v) s = access (.write32 (BitVec.ofNat 12 (regOffset r)) v') s) ∧
  (∀ (s : State) (base i : Nat), (base = 0x400 ∨ base = 0x800) → i < 256 →
    (∃ b : Byte, access (.read32 (BitVec.ofNat 12 (base + 4 * i))) s =
      .next { s with response := .readData (b.setWidth 32) }) ∧
    ∀ v v' : Word, v.extractLsb' 0 8 = v'.extractLsb' 0 8 →
      access (.write32 (BitVec.ofNat 12 (base + 4 * i)) v) s = access (.write32 (BitVec.ofNat 12 (base + 4 * i)) v') s) ∧
  (∀ (s : State) (v : Word) (r : Reg), r ∈ [Reg.status, .crc, .crcw, .txflen, .rxplen, .rxcrc] →
    access (.write32 (BitVec.ofNat 12 (regOffset r)) v) s = .next { s with response := .writeDone })

/-- R45: a read changes nothing in the block and repeats with the same answer; a write to anything but CMD, done
twice, is done once (the answers stand in `response`, log entry 4). -/
def Obligations.ReadsAreFreeAndWritesIdempotent : Prop :=
  (∀ (a : Access) (s t : State), a.op = .read → access a s = .next t →
    SameBlock s t ∧ t.pending = s.pending ∧ access a t = .next t) ∧
  (∀ (a : Access) (v : Word) (s t : State), a.op = .write v → a.off ≠ 0x004 → access a s = .next t →
    access a t = .next t)

/-- R120, marked derived by the spec: writes to two different inputs give the same state in either order, and only the
last write to an input counts (the states hold the completion too, log entry 4). -/
def Obligations.InputWritesCommute : Prop :=
  ∀ (off off' : Offset) (v v' : Word) (s : State), mappedOffset off.toNat = true → off ≠ 0x004 →
    mappedOffset off'.toNat = true → off' ≠ 0x004 →
    ∃ t, access (.write32 off v) s = .next t ∧ ∃ t', access (.write32 off' v') s = .next t' ∧
      (off ≠ off' → access (.write32 off' v') t = access (.write32 off v) t') ∧
      (off = off' → access (.write32 off' v') t = .next t')

/- The step, reset, and the whole machine -/

/-- A step runs the decoded command: when the host's next step writes to CMD a word that decodes to `i`, the step is
`exec i`, with that access over and its completion answered (R44, R64; log entries 3 and 4). -/
def Obligations.StepRunsDecodedCommand : Prop :=
  ∀ (s : State) (w : Word) (i : Instr) (rest : List HostStep),
    s.pending = cmdWrite w :: rest → decode w = .command i →
    step s = exec i { s with pending := rest, response := .writeDone }

/-- R6, in the form of log entry 3: a step that has a next state has taken exactly the host's next step. -/
def Obligations.StepTakesOneHostStep : Prop :=
  ∀ s t : State, step s = .next t → ∃ h, s.pending = h :: t.pending

/-- R110: every register after reset, at power-up and after a reset in any state; no buffer byte is known
(log entries 2 and 5). -/
def Obligations.ResetValues : Prop :=
  ∀ (s t : State) (held : Option Word), (t = State.reset ∨ hostStep (.reset held) s = .next t) →
    t.achk = true ∧ t.result.code = 0x0 ∧ t.err = false ∧ t.acc = 0xFFFF ∧ t.readReg .crcw = 0x0000FFFF ∧
    t.txaddr = 0x00 ∧ t.txlen = 0 ∧ t.txflen = 0 ∧ t.rxlen = 0 ∧ t.rxexp = 0x00 ∧ t.rxplen = 0 ∧
    t.readReg .rxcrc = 0x00000000 ∧ ∀ a, t.mem.lookup a = none

/-- R111 and 93 U2, in the form of log entry 2: after a reset every buffer byte reads as a draw of its own, for every
value of the draws; and from every state, a step that is no reset leaves a byte that it does not write as it was:
listed or not, and a draw if it was one. A step writes a byte when it writes to its word, or is a FRM.ENCODE that
stores there (R77). -/
def Obligations.UnwrittenBytesAreStableDraws : Prop :=
  (∀ (s : State) (held : Option Word), ∃ t, hostStep (.reset held) s = .next t ∧
    (∀ a, t.mem.lookup a = none) ∧
    ∀ i, i < 256 → t.txByte i = Config.bufferDraw t.epoch (0x400 + 4 * i) ∧
      t.rxByte i = Config.bufferDraw t.epoch (0x800 + 4 * i)) ∧
  (∀ (s t : State) (h : HostStep) (rest : List HostStep) (a : Nat),
    s.pending = h :: rest → step s = .next t → (∀ held, h ≠ .reset held) →
    (∀ acc v, h = .access acc → acc.op = .write v → acc.off.toNat ≠ a) →
    (∀ w, h.commandWord = some w → decode w = .command .frmEncode → 1 ≤ s.txlen.toNat → s.txlen.toNat ≤ 253 →
      a ≠ txOffset 0 ∧ a ≠ txOffset (s.txlen.toNat + 1) ∧ a ≠ txOffset (s.txlen.toNat + 2)) →
    t.epoch = s.epoch ∧ t.mem.lookup a = s.mem.lookup a ∧ t.byteAt a = s.byteAt a ∧
    (s.mem.lookup a = none → t.byteAt a = Config.bufferDraw s.epoch a))

/-- R112, marked derived by the spec: a reset that coincides with a held CMD write leaves what any reset leaves. -/
def Obligations.ResetAbandonsTheHeldCommand : Prop :=
  ∀ (s : State) (w : Word) (rest : List HostStep), s.pending = .reset (some w) :: rest →
    step s = .next { State.reset with epoch := s.epoch + 1, pending := rest }

/-- The invariant holds after reset. -/
def Obligations.ResetSatisfiesInvariant : Prop := State.reset.Inv

/-- Every step keeps the invariant: the buffers' canonical form (log entry 5), only buffer words stored, a failure in
RESULT is in ERR too (R20), TXFLEN and RXPLEN stay in their ranges (R25, R86), a nonzero RXPLEN goes with a matching
RXCRC (R86). -/
def Obligations.StepKeepsInvariant : Prop :=
  ∀ s t : State, s.Inv → step s = .next t → t.Inv

/-- R95: every command completes and every host access completes or gets a bus error, so a host sequence of admitted
accesses and resets runs to its end from every state (the sequence stands in `pending`, log entry 3). -/
def Obligations.AdmittedSequencesRunToTheEnd : Prop :=
  ∀ s : State, (∀ h ∈ s.pending, h.admitted = true) →
    ∃ t, Host.Core.run Sys2Proof.core s.pending.length s = .next t ∧ t.pending = []

/- The assembler -/

/-- R69: each command mnemonic is the CMD write of its encoding; an operand or value out of range is refused, not
truncated. -/
def Obligations.AssemblerWritesEncodings : Prop :=
  assemble [.crcInit] = some [cmdWrite (encode .crcInit)] ∧
  (∀ b : Byte, assemble [.crcByte b.toNat] = some [cmdWrite (encode (.crcByte b))]) ∧
  assemble [.frmEncode] = some [cmdWrite (encode .frmEncode)] ∧
  assemble [.frmValidate] = some [cmdWrite (encode .frmValidate)] ∧
  assemble [.stsClear] = some [cmdWrite (encode .stsClear)] ∧
  (∀ n : Nat, 256 ≤ n → assemble [.crcByte n] = none) ∧
  (∀ (t : AsmTarget) (v : Nat), 2 ^ 32 ≤ v → assemble [.line (.w32 t v)] = none)

/-- R70: the expansions of the pseudo-instructions, for lists of every length (operand ranges: log entry 10). -/
def Obligations.PseudoInstructionsExpand : Prop :=
  (∀ i b, expandStmt (.txb i b) = [AsmLine.w32 (.offset (0x400 + 4 * i)) b]) ∧
  (∀ i b, expandStmt (.rxb i b) = [AsmLine.w32 (.offset (0x800 + 4 * i)) b]) ∧
  (∀ bytes, expandStmt (.crc16 bytes) =
    expandStmt .crcInit ++ bytes.flatMap (fun b => expandStmt (.crcByte b))) ∧
  (∀ a pdu, expandStmt (.txload a pdu) = [AsmLine.w32 (.reg .txaddr) a] ++
    pdu.mapIdx (fun i b => AsmLine.w32 (.offset (0x400 + 4 * (i + 1))) b) ++
    [AsmLine.w32 (.reg .txlen) pdu.length]) ∧
  (∀ bytes, expandStmt (.rxload bytes) =
    bytes.mapIdx (fun i b => AsmLine.w32 (.offset (0x800 + 4 * i)) b) ++
    [AsmLine.w32 (.reg .rxlen) bytes.length]) ∧
  expandStmt .checkok = [AsmLine.r32 (.reg .status) (some 0x00000000)]
end

