-- ==== Sys2Proof/Laws/Bytes.lean ====
section
/-! SUPPORT. The two bytes of a 16-bit value (R9, R62): taking them apart and joining them undo each other. -/

namespace Sys2Proof.Machine

/-- A bit of two joined bytes. -/
theorem getLsbD_joinBytes (hi lo : Byte) (i : Nat) :
    (joinBytes hi lo).getLsbD i = if i < 8 then lo.getLsbD i else hi.getLsbD (i - 8) := by
  rw [joinBytes, BitVec.getLsbD_append]

@[simp] theorem lowByte_joinBytes (hi lo : Byte) : lowByte (joinBytes hi lo) = lo := by
  refine BitVec.eq_of_getLsbD_eq fun i h => ?_
  simp [lowByte, getLsbD_joinBytes, h]

@[simp] theorem highByte_joinBytes (hi lo : Byte) : highByte (joinBytes hi lo) = hi := by
  refine BitVec.eq_of_getLsbD_eq fun i h => ?_
  simp [highByte, getLsbD_joinBytes, h]

@[simp] theorem joinBytes_split (r : Half) : joinBytes (highByte r) (lowByte r) = r := by
  refine BitVec.eq_of_getLsbD_eq fun i h => ?_
  rw [getLsbD_joinBytes]
  by_cases h8 : i < 8
  · simp [lowByte, h8]
  · have e : 8 + (i - 8) = i := by omega
    simp only [h8, if_false, highByte, BitVec.getLsbD_extractLsb', e, show i - 8 < 8 by omega, decide_true,
      Bool.true_and]

theorem joinBytes_inj {hi lo hi' lo' : Byte} : joinBytes hi lo = joinBytes hi' lo' ↔ hi = hi' ∧ lo = lo' := by
  refine ⟨fun h => ⟨?_, ?_⟩, fun ⟨h, h'⟩ => by rw [h, h']⟩
  · simpa using congrArg highByte h
  · simpa using congrArg lowByte h

/-- The swapped value is the two bytes joined the other way round (R22). -/
theorem swap16_eq (r : Half) : swap16 r = joinBytes (lowByte r) (highByte r) := rfl

end Sys2Proof.Machine
end

