-- ==== Sys2Proof/Laws/State.lean ====
section
/-! SUPPORT. The small lemmas of `State`: what every field is after every update. -/

namespace Sys2Proof.Machine.State

variable (s : State)

@[simp] theorem setAchk_achk (v : Bool) : (s.setAchk v).achk = v := rfl
@[simp] theorem setAchk_result (v : Bool) : (s.setAchk v).result = s.result := rfl
@[simp] theorem setAchk_err (v : Bool) : (s.setAchk v).err = s.err := rfl
@[simp] theorem setAchk_acc (v : Bool) : (s.setAchk v).acc = s.acc := rfl
@[simp] theorem setAchk_txaddr (v : Bool) : (s.setAchk v).txaddr = s.txaddr := rfl
@[simp] theorem setAchk_txlen (v : Bool) : (s.setAchk v).txlen = s.txlen := rfl
@[simp] theorem setAchk_txflen (v : Bool) : (s.setAchk v).txflen = s.txflen := rfl
@[simp] theorem setAchk_rxlen (v : Bool) : (s.setAchk v).rxlen = s.rxlen := rfl
@[simp] theorem setAchk_rxexp (v : Bool) : (s.setAchk v).rxexp = s.rxexp := rfl
@[simp] theorem setAchk_rxplen (v : Bool) : (s.setAchk v).rxplen = s.rxplen := rfl
@[simp] theorem setAchk_rxcrcCalc (v : Bool) : (s.setAchk v).rxcrcCalc = s.rxcrcCalc := rfl
@[simp] theorem setAchk_rxcrcRecv (v : Bool) : (s.setAchk v).rxcrcRecv = s.rxcrcRecv := rfl
@[simp] theorem setAchk_mem (v : Bool) : (s.setAchk v).mem = s.mem := rfl
@[simp] theorem setAchk_epoch (v : Bool) : (s.setAchk v).epoch = s.epoch := rfl
@[simp] theorem setAchk_pending (v : Bool) : (s.setAchk v).pending = s.pending := rfl
@[simp] theorem setAchk_response (v : Bool) : (s.setAchk v).response = s.response := rfl

@[simp] theorem setAcc_achk (v : Half) : (s.setAcc v).achk = s.achk := rfl
@[simp] theorem setAcc_result (v : Half) : (s.setAcc v).result = s.result := rfl
@[simp] theorem setAcc_err (v : Half) : (s.setAcc v).err = s.err := rfl
@[simp] theorem setAcc_acc (v : Half) : (s.setAcc v).acc = v := rfl
@[simp] theorem setAcc_txaddr (v : Half) : (s.setAcc v).txaddr = s.txaddr := rfl
@[simp] theorem setAcc_txlen (v : Half) : (s.setAcc v).txlen = s.txlen := rfl
@[simp] theorem setAcc_txflen (v : Half) : (s.setAcc v).txflen = s.txflen := rfl
@[simp] theorem setAcc_rxlen (v : Half) : (s.setAcc v).rxlen = s.rxlen := rfl
@[simp] theorem setAcc_rxexp (v : Half) : (s.setAcc v).rxexp = s.rxexp := rfl
@[simp] theorem setAcc_rxplen (v : Half) : (s.setAcc v).rxplen = s.rxplen := rfl
@[simp] theorem setAcc_rxcrcCalc (v : Half) : (s.setAcc v).rxcrcCalc = s.rxcrcCalc := rfl
@[simp] theorem setAcc_rxcrcRecv (v : Half) : (s.setAcc v).rxcrcRecv = s.rxcrcRecv := rfl
@[simp] theorem setAcc_mem (v : Half) : (s.setAcc v).mem = s.mem := rfl
@[simp] theorem setAcc_epoch (v : Half) : (s.setAcc v).epoch = s.epoch := rfl
@[simp] theorem setAcc_pending (v : Half) : (s.setAcc v).pending = s.pending := rfl
@[simp] theorem setAcc_response (v : Half) : (s.setAcc v).response = s.response := rfl

@[simp] theorem setTxaddr_achk (v : Byte) : (s.setTxaddr v).achk = s.achk := rfl
@[simp] theorem setTxaddr_result (v : Byte) : (s.setTxaddr v).result = s.result := rfl
@[simp] theorem setTxaddr_err (v : Byte) : (s.setTxaddr v).err = s.err := rfl
@[simp] theorem setTxaddr_acc (v : Byte) : (s.setTxaddr v).acc = s.acc := rfl
@[simp] theorem setTxaddr_txaddr (v : Byte) : (s.setTxaddr v).txaddr = v := rfl
@[simp] theorem setTxaddr_txlen (v : Byte) : (s.setTxaddr v).txlen = s.txlen := rfl
@[simp] theorem setTxaddr_txflen (v : Byte) : (s.setTxaddr v).txflen = s.txflen := rfl
@[simp] theorem setTxaddr_rxlen (v : Byte) : (s.setTxaddr v).rxlen = s.rxlen := rfl
@[simp] theorem setTxaddr_rxexp (v : Byte) : (s.setTxaddr v).rxexp = s.rxexp := rfl
@[simp] theorem setTxaddr_rxplen (v : Byte) : (s.setTxaddr v).rxplen = s.rxplen := rfl
@[simp] theorem setTxaddr_rxcrcCalc (v : Byte) : (s.setTxaddr v).rxcrcCalc = s.rxcrcCalc := rfl
@[simp] theorem setTxaddr_rxcrcRecv (v : Byte) : (s.setTxaddr v).rxcrcRecv = s.rxcrcRecv := rfl
@[simp] theorem setTxaddr_mem (v : Byte) : (s.setTxaddr v).mem = s.mem := rfl
@[simp] theorem setTxaddr_epoch (v : Byte) : (s.setTxaddr v).epoch = s.epoch := rfl
@[simp] theorem setTxaddr_pending (v : Byte) : (s.setTxaddr v).pending = s.pending := rfl
@[simp] theorem setTxaddr_response (v : Byte) : (s.setTxaddr v).response = s.response := rfl

@[simp] theorem setTxlen_achk (v : Len) : (s.setTxlen v).achk = s.achk := rfl
@[simp] theorem setTxlen_result (v : Len) : (s.setTxlen v).result = s.result := rfl
@[simp] theorem setTxlen_err (v : Len) : (s.setTxlen v).err = s.err := rfl
@[simp] theorem setTxlen_acc (v : Len) : (s.setTxlen v).acc = s.acc := rfl
@[simp] theorem setTxlen_txaddr (v : Len) : (s.setTxlen v).txaddr = s.txaddr := rfl
@[simp] theorem setTxlen_txlen (v : Len) : (s.setTxlen v).txlen = v := rfl
@[simp] theorem setTxlen_txflen (v : Len) : (s.setTxlen v).txflen = s.txflen := rfl
@[simp] theorem setTxlen_rxlen (v : Len) : (s.setTxlen v).rxlen = s.rxlen := rfl
@[simp] theorem setTxlen_rxexp (v : Len) : (s.setTxlen v).rxexp = s.rxexp := rfl
@[simp] theorem setTxlen_rxplen (v : Len) : (s.setTxlen v).rxplen = s.rxplen := rfl
@[simp] theorem setTxlen_rxcrcCalc (v : Len) : (s.setTxlen v).rxcrcCalc = s.rxcrcCalc := rfl
@[simp] theorem setTxlen_rxcrcRecv (v : Len) : (s.setTxlen v).rxcrcRecv = s.rxcrcRecv := rfl
@[simp] theorem setTxlen_mem (v : Len) : (s.setTxlen v).mem = s.mem := rfl
@[simp] theorem setTxlen_epoch (v : Len) : (s.setTxlen v).epoch = s.epoch := rfl
@[simp] theorem setTxlen_pending (v : Len) : (s.setTxlen v).pending = s.pending := rfl
@[simp] theorem setTxlen_response (v : Len) : (s.setTxlen v).response = s.response := rfl

@[simp] theorem setTxflen_achk (v : Len) : (s.setTxflen v).achk = s.achk := rfl
@[simp] theorem setTxflen_result (v : Len) : (s.setTxflen v).result = s.result := rfl
@[simp] theorem setTxflen_err (v : Len) : (s.setTxflen v).err = s.err := rfl
@[simp] theorem setTxflen_acc (v : Len) : (s.setTxflen v).acc = s.acc := rfl
@[simp] theorem setTxflen_txaddr (v : Len) : (s.setTxflen v).txaddr = s.txaddr := rfl
@[simp] theorem setTxflen_txlen (v : Len) : (s.setTxflen v).txlen = s.txlen := rfl
@[simp] theorem setTxflen_txflen (v : Len) : (s.setTxflen v).txflen = v := rfl
@[simp] theorem setTxflen_rxlen (v : Len) : (s.setTxflen v).rxlen = s.rxlen := rfl
@[simp] theorem setTxflen_rxexp (v : Len) : (s.setTxflen v).rxexp = s.rxexp := rfl
@[simp] theorem setTxflen_rxplen (v : Len) : (s.setTxflen v).rxplen = s.rxplen := rfl
@[simp] theorem setTxflen_rxcrcCalc (v : Len) : (s.setTxflen v).rxcrcCalc = s.rxcrcCalc := rfl
@[simp] theorem setTxflen_rxcrcRecv (v : Len) : (s.setTxflen v).rxcrcRecv = s.rxcrcRecv := rfl
@[simp] theorem setTxflen_mem (v : Len) : (s.setTxflen v).mem = s.mem := rfl
@[simp] theorem setTxflen_epoch (v : Len) : (s.setTxflen v).epoch = s.epoch := rfl
@[simp] theorem setTxflen_pending (v : Len) : (s.setTxflen v).pending = s.pending := rfl
@[simp] theorem setTxflen_response (v : Len) : (s.setTxflen v).response = s.response := rfl

@[simp] theorem setRxlen_achk (v : Len) : (s.setRxlen v).achk = s.achk := rfl
@[simp] theorem setRxlen_result (v : Len) : (s.setRxlen v).result = s.result := rfl
@[simp] theorem setRxlen_err (v : Len) : (s.setRxlen v).err = s.err := rfl
@[simp] theorem setRxlen_acc (v : Len) : (s.setRxlen v).acc = s.acc := rfl
@[simp] theorem setRxlen_txaddr (v : Len) : (s.setRxlen v).txaddr = s.txaddr := rfl
@[simp] theorem setRxlen_txlen (v : Len) : (s.setRxlen v).txlen = s.txlen := rfl
@[simp] theorem setRxlen_txflen (v : Len) : (s.setRxlen v).txflen = s.txflen := rfl
@[simp] theorem setRxlen_rxlen (v : Len) : (s.setRxlen v).rxlen = v := rfl
@[simp] theorem setRxlen_rxexp (v : Len) : (s.setRxlen v).rxexp = s.rxexp := rfl
@[simp] theorem setRxlen_rxplen (v : Len) : (s.setRxlen v).rxplen = s.rxplen := rfl
@[simp] theorem setRxlen_rxcrcCalc (v : Len) : (s.setRxlen v).rxcrcCalc = s.rxcrcCalc := rfl
@[simp] theorem setRxlen_rxcrcRecv (v : Len) : (s.setRxlen v).rxcrcRecv = s.rxcrcRecv := rfl
@[simp] theorem setRxlen_mem (v : Len) : (s.setRxlen v).mem = s.mem := rfl
@[simp] theorem setRxlen_epoch (v : Len) : (s.setRxlen v).epoch = s.epoch := rfl
@[simp] theorem setRxlen_pending (v : Len) : (s.setRxlen v).pending = s.pending := rfl
@[simp] theorem setRxlen_response (v : Len) : (s.setRxlen v).response = s.response := rfl

@[simp] theorem setRxexp_achk (v : Byte) : (s.setRxexp v).achk = s.achk := rfl
@[simp] theorem setRxexp_result (v : Byte) : (s.setRxexp v).result = s.result := rfl
@[simp] theorem setRxexp_err (v : Byte) : (s.setRxexp v).err = s.err := rfl
@[simp] theorem setRxexp_acc (v : Byte) : (s.setRxexp v).acc = s.acc := rfl
@[simp] theorem setRxexp_txaddr (v : Byte) : (s.setRxexp v).txaddr = s.txaddr := rfl
@[simp] theorem setRxexp_txlen (v : Byte) : (s.setRxexp v).txlen = s.txlen := rfl
@[simp] theorem setRxexp_txflen (v : Byte) : (s.setRxexp v).txflen = s.txflen := rfl
@[simp] theorem setRxexp_rxlen (v : Byte) : (s.setRxexp v).rxlen = s.rxlen := rfl
@[simp] theorem setRxexp_rxexp (v : Byte) : (s.setRxexp v).rxexp = v := rfl
@[simp] theorem setRxexp_rxplen (v : Byte) : (s.setRxexp v).rxplen = s.rxplen := rfl
@[simp] theorem setRxexp_rxcrcCalc (v : Byte) : (s.setRxexp v).rxcrcCalc = s.rxcrcCalc := rfl
@[simp] theorem setRxexp_rxcrcRecv (v : Byte) : (s.setRxexp v).rxcrcRecv = s.rxcrcRecv := rfl
@[simp] theorem setRxexp_mem (v : Byte) : (s.setRxexp v).mem = s.mem := rfl
@[simp] theorem setRxexp_epoch (v : Byte) : (s.setRxexp v).epoch = s.epoch := rfl
@[simp] theorem setRxexp_pending (v : Byte) : (s.setRxexp v).pending = s.pending := rfl
@[simp] theorem setRxexp_response (v : Byte) : (s.setRxexp v).response = s.response := rfl

@[simp] theorem setRxplen_achk (v : Len) : (s.setRxplen v).achk = s.achk := rfl
@[simp] theorem setRxplen_result (v : Len) : (s.setRxplen v).result = s.result := rfl
@[simp] theorem setRxplen_err (v : Len) : (s.setRxplen v).err = s.err := rfl
@[simp] theorem setRxplen_acc (v : Len) : (s.setRxplen v).acc = s.acc := rfl
@[simp] theorem setRxplen_txaddr (v : Len) : (s.setRxplen v).txaddr = s.txaddr := rfl
@[simp] theorem setRxplen_txlen (v : Len) : (s.setRxplen v).txlen = s.txlen := rfl
@[simp] theorem setRxplen_txflen (v : Len) : (s.setRxplen v).txflen = s.txflen := rfl
@[simp] theorem setRxplen_rxlen (v : Len) : (s.setRxplen v).rxlen = s.rxlen := rfl
@[simp] theorem setRxplen_rxexp (v : Len) : (s.setRxplen v).rxexp = s.rxexp := rfl
@[simp] theorem setRxplen_rxplen (v : Len) : (s.setRxplen v).rxplen = v := rfl
@[simp] theorem setRxplen_rxcrcCalc (v : Len) : (s.setRxplen v).rxcrcCalc = s.rxcrcCalc := rfl
@[simp] theorem setRxplen_rxcrcRecv (v : Len) : (s.setRxplen v).rxcrcRecv = s.rxcrcRecv := rfl
@[simp] theorem setRxplen_mem (v : Len) : (s.setRxplen v).mem = s.mem := rfl
@[simp] theorem setRxplen_epoch (v : Len) : (s.setRxplen v).epoch = s.epoch := rfl
@[simp] theorem setRxplen_pending (v : Len) : (s.setRxplen v).pending = s.pending := rfl
@[simp] theorem setRxplen_response (v : Len) : (s.setRxplen v).response = s.response := rfl

@[simp] theorem setRxcrc_achk (c r : Half) : (s.setRxcrc c r).achk = s.achk := rfl
@[simp] theorem setRxcrc_result (c r : Half) : (s.setRxcrc c r).result = s.result := rfl
@[simp] theorem setRxcrc_err (c r : Half) : (s.setRxcrc c r).err = s.err := rfl
@[simp] theorem setRxcrc_acc (c r : Half) : (s.setRxcrc c r).acc = s.acc := rfl
@[simp] theorem setRxcrc_txaddr (c r : Half) : (s.setRxcrc c r).txaddr = s.txaddr := rfl
@[simp] theorem setRxcrc_txlen (c r : Half) : (s.setRxcrc c r).txlen = s.txlen := rfl
@[simp] theorem setRxcrc_txflen (c r : Half) : (s.setRxcrc c r).txflen = s.txflen := rfl
@[simp] theorem setRxcrc_rxlen (c r : Half) : (s.setRxcrc c r).rxlen = s.rxlen := rfl
@[simp] theorem setRxcrc_rxexp (c r : Half) : (s.setRxcrc c r).rxexp = s.rxexp := rfl
@[simp] theorem setRxcrc_rxplen (c r : Half) : (s.setRxcrc c r).rxplen = s.rxplen := rfl
@[simp] theorem setRxcrc_rxcrcCalc (c r : Half) : (s.setRxcrc c r).rxcrcCalc = c := rfl
@[simp] theorem setRxcrc_rxcrcRecv (c r : Half) : (s.setRxcrc c r).rxcrcRecv = r := rfl
@[simp] theorem setRxcrc_mem (c r : Half) : (s.setRxcrc c r).mem = s.mem := rfl
@[simp] theorem setRxcrc_epoch (c r : Half) : (s.setRxcrc c r).epoch = s.epoch := rfl
@[simp] theorem setRxcrc_pending (c r : Half) : (s.setRxcrc c r).pending = s.pending := rfl
@[simp] theorem setRxcrc_response (c r : Half) : (s.setRxcrc c r).response = s.response := rfl

@[simp] theorem respond_achk (r : Response) : (s.respond r).achk = s.achk := rfl
@[simp] theorem respond_result (r : Response) : (s.respond r).result = s.result := rfl
@[simp] theorem respond_err (r : Response) : (s.respond r).err = s.err := rfl
@[simp] theorem respond_acc (r : Response) : (s.respond r).acc = s.acc := rfl
@[simp] theorem respond_txaddr (r : Response) : (s.respond r).txaddr = s.txaddr := rfl
@[simp] theorem respond_txlen (r : Response) : (s.respond r).txlen = s.txlen := rfl
@[simp] theorem respond_txflen (r : Response) : (s.respond r).txflen = s.txflen := rfl
@[simp] theorem respond_rxlen (r : Response) : (s.respond r).rxlen = s.rxlen := rfl
@[simp] theorem respond_rxexp (r : Response) : (s.respond r).rxexp = s.rxexp := rfl
@[simp] theorem respond_rxplen (r : Response) : (s.respond r).rxplen = s.rxplen := rfl
@[simp] theorem respond_rxcrcCalc (r : Response) : (s.respond r).rxcrcCalc = s.rxcrcCalc := rfl
@[simp] theorem respond_rxcrcRecv (r : Response) : (s.respond r).rxcrcRecv = s.rxcrcRecv := rfl
@[simp] theorem respond_mem (r : Response) : (s.respond r).mem = s.mem := rfl
@[simp] theorem respond_epoch (r : Response) : (s.respond r).epoch = s.epoch := rfl
@[simp] theorem respond_pending (r : Response) : (s.respond r).pending = s.pending := rfl
@[simp] theorem respond_response (r : Response) : (s.respond r).response = r := rfl

@[simp] theorem setPending_achk (p : List HostStep) : (s.setPending p).achk = s.achk := rfl
@[simp] theorem setPending_result (p : List HostStep) : (s.setPending p).result = s.result := rfl
@[simp] theorem setPending_err (p : List HostStep) : (s.setPending p).err = s.err := rfl
@[simp] theorem setPending_acc (p : List HostStep) : (s.setPending p).acc = s.acc := rfl
@[simp] theorem setPending_txaddr (p : List HostStep) : (s.setPending p).txaddr = s.txaddr := rfl
@[simp] theorem setPending_txlen (p : List HostStep) : (s.setPending p).txlen = s.txlen := rfl
@[simp] theorem setPending_txflen (p : List HostStep) : (s.setPending p).txflen = s.txflen := rfl
@[simp] theorem setPending_rxlen (p : List HostStep) : (s.setPending p).rxlen = s.rxlen := rfl
@[simp] theorem setPending_rxexp (p : List HostStep) : (s.setPending p).rxexp = s.rxexp := rfl
@[simp] theorem setPending_rxplen (p : List HostStep) : (s.setPending p).rxplen = s.rxplen := rfl
@[simp] theorem setPending_rxcrcCalc (p : List HostStep) : (s.setPending p).rxcrcCalc = s.rxcrcCalc := rfl
@[simp] theorem setPending_rxcrcRecv (p : List HostStep) : (s.setPending p).rxcrcRecv = s.rxcrcRecv := rfl
@[simp] theorem setPending_mem (p : List HostStep) : (s.setPending p).mem = s.mem := rfl
@[simp] theorem setPending_epoch (p : List HostStep) : (s.setPending p).epoch = s.epoch := rfl
@[simp] theorem setPending_pending (p : List HostStep) : (s.setPending p).pending = p := rfl
@[simp] theorem setPending_response (p : List HostStep) : (s.setPending p).response = s.response := rfl

@[simp] theorem writeByte_achk (a : Nat) (b : Byte) : (s.writeByte a b).achk = s.achk := rfl
@[simp] theorem writeByte_result (a : Nat) (b : Byte) : (s.writeByte a b).result = s.result := rfl
@[simp] theorem writeByte_err (a : Nat) (b : Byte) : (s.writeByte a b).err = s.err := rfl
@[simp] theorem writeByte_acc (a : Nat) (b : Byte) : (s.writeByte a b).acc = s.acc := rfl
@[simp] theorem writeByte_txaddr (a : Nat) (b : Byte) : (s.writeByte a b).txaddr = s.txaddr := rfl
@[simp] theorem writeByte_txlen (a : Nat) (b : Byte) : (s.writeByte a b).txlen = s.txlen := rfl
@[simp] theorem writeByte_txflen (a : Nat) (b : Byte) : (s.writeByte a b).txflen = s.txflen := rfl
@[simp] theorem writeByte_rxlen (a : Nat) (b : Byte) : (s.writeByte a b).rxlen = s.rxlen := rfl
@[simp] theorem writeByte_rxexp (a : Nat) (b : Byte) : (s.writeByte a b).rxexp = s.rxexp := rfl
@[simp] theorem writeByte_rxplen (a : Nat) (b : Byte) : (s.writeByte a b).rxplen = s.rxplen := rfl
@[simp] theorem writeByte_rxcrcCalc (a : Nat) (b : Byte) : (s.writeByte a b).rxcrcCalc = s.rxcrcCalc := rfl
@[simp] theorem writeByte_rxcrcRecv (a : Nat) (b : Byte) : (s.writeByte a b).rxcrcRecv = s.rxcrcRecv := rfl
@[simp] theorem writeByte_mem (a : Nat) (b : Byte) : (s.writeByte a b).mem = s.mem.write a b := rfl
@[simp] theorem writeByte_epoch (a : Nat) (b : Byte) : (s.writeByte a b).epoch = s.epoch := rfl
@[simp] theorem writeByte_pending (a : Nat) (b : Byte) : (s.writeByte a b).pending = s.pending := rfl
@[simp] theorem writeByte_response (a : Nat) (b : Byte) : (s.writeByte a b).response = s.response := rfl

@[simp] theorem report_achk (c : ResultCode) : (s.report c).achk = s.achk := rfl
@[simp] theorem report_result (c : ResultCode) : (s.report c).result = c := rfl
@[simp] theorem report_err (c : ResultCode) : (s.report c).err = (s.err || c.failed) := rfl
@[simp] theorem report_acc (c : ResultCode) : (s.report c).acc = s.acc := rfl
@[simp] theorem report_txaddr (c : ResultCode) : (s.report c).txaddr = s.txaddr := rfl
@[simp] theorem report_txlen (c : ResultCode) : (s.report c).txlen = s.txlen := rfl
@[simp] theorem report_txflen (c : ResultCode) : (s.report c).txflen = s.txflen := rfl
@[simp] theorem report_rxlen (c : ResultCode) : (s.report c).rxlen = s.rxlen := rfl
@[simp] theorem report_rxexp (c : ResultCode) : (s.report c).rxexp = s.rxexp := rfl
@[simp] theorem report_rxplen (c : ResultCode) : (s.report c).rxplen = s.rxplen := rfl
@[simp] theorem report_rxcrcCalc (c : ResultCode) : (s.report c).rxcrcCalc = s.rxcrcCalc := rfl
@[simp] theorem report_rxcrcRecv (c : ResultCode) : (s.report c).rxcrcRecv = s.rxcrcRecv := rfl
@[simp] theorem report_mem (c : ResultCode) : (s.report c).mem = s.mem := rfl
@[simp] theorem report_epoch (c : ResultCode) : (s.report c).epoch = s.epoch := rfl
@[simp] theorem report_pending (c : ResultCode) : (s.report c).pending = s.pending := rfl
@[simp] theorem report_response (c : ResultCode) : (s.report c).response = s.response := rfl

@[simp] theorem clearStatus_achk : s.clearStatus.achk = s.achk := rfl
@[simp] theorem clearStatus_result : s.clearStatus.result = .ok := rfl
@[simp] theorem clearStatus_err : s.clearStatus.err = false := rfl
@[simp] theorem clearStatus_acc : s.clearStatus.acc = s.acc := rfl
@[simp] theorem clearStatus_txaddr : s.clearStatus.txaddr = s.txaddr := rfl
@[simp] theorem clearStatus_txlen : s.clearStatus.txlen = s.txlen := rfl
@[simp] theorem clearStatus_txflen : s.clearStatus.txflen = s.txflen := rfl
@[simp] theorem clearStatus_rxlen : s.clearStatus.rxlen = s.rxlen := rfl
@[simp] theorem clearStatus_rxexp : s.clearStatus.rxexp = s.rxexp := rfl
@[simp] theorem clearStatus_rxplen : s.clearStatus.rxplen = s.rxplen := rfl
@[simp] theorem clearStatus_rxcrcCalc : s.clearStatus.rxcrcCalc = s.rxcrcCalc := rfl
@[simp] theorem clearStatus_rxcrcRecv : s.clearStatus.rxcrcRecv = s.rxcrcRecv := rfl
@[simp] theorem clearStatus_mem : s.clearStatus.mem = s.mem := rfl
@[simp] theorem clearStatus_epoch : s.clearStatus.epoch = s.epoch := rfl
@[simp] theorem clearStatus_pending : s.clearStatus.pending = s.pending := rfl
@[simp] theorem clearStatus_response : s.clearStatus.response = s.response := rfl

@[simp] theorem resetBlock_achk : s.resetBlock.achk = State.reset.achk := rfl
@[simp] theorem resetBlock_result : s.resetBlock.result = State.reset.result := rfl
@[simp] theorem resetBlock_err : s.resetBlock.err = State.reset.err := rfl
@[simp] theorem resetBlock_acc : s.resetBlock.acc = State.reset.acc := rfl
@[simp] theorem resetBlock_txaddr : s.resetBlock.txaddr = State.reset.txaddr := rfl
@[simp] theorem resetBlock_txlen : s.resetBlock.txlen = State.reset.txlen := rfl
@[simp] theorem resetBlock_txflen : s.resetBlock.txflen = State.reset.txflen := rfl
@[simp] theorem resetBlock_rxlen : s.resetBlock.rxlen = State.reset.rxlen := rfl
@[simp] theorem resetBlock_rxexp : s.resetBlock.rxexp = State.reset.rxexp := rfl
@[simp] theorem resetBlock_rxplen : s.resetBlock.rxplen = State.reset.rxplen := rfl
@[simp] theorem resetBlock_rxcrcCalc : s.resetBlock.rxcrcCalc = State.reset.rxcrcCalc := rfl
@[simp] theorem resetBlock_rxcrcRecv : s.resetBlock.rxcrcRecv = State.reset.rxcrcRecv := rfl
@[simp] theorem resetBlock_mem : s.resetBlock.mem = State.reset.mem := rfl
@[simp] theorem resetBlock_epoch : s.resetBlock.epoch = s.epoch + 1 := rfl
@[simp] theorem resetBlock_pending : s.resetBlock.pending = s.pending := rfl
@[simp] theorem resetBlock_response : s.resetBlock.response = State.reset.response := rfl

@[simp] theorem failEncode_achk (c : ResultCode) : (s.failEncode c).achk = s.achk := rfl
@[simp] theorem failEncode_result (c : ResultCode) : (s.failEncode c).result = c := rfl
@[simp] theorem failEncode_err (c : ResultCode) : (s.failEncode c).err = (s.err || c.failed) := rfl
@[simp] theorem failEncode_acc (c : ResultCode) : (s.failEncode c).acc = s.acc := rfl
@[simp] theorem failEncode_txaddr (c : ResultCode) : (s.failEncode c).txaddr = s.txaddr := rfl
@[simp] theorem failEncode_txlen (c : ResultCode) : (s.failEncode c).txlen = s.txlen := rfl
@[simp] theorem failEncode_txflen (c : ResultCode) : (s.failEncode c).txflen = 0 := rfl
@[simp] theorem failEncode_rxlen (c : ResultCode) : (s.failEncode c).rxlen = s.rxlen := rfl
@[simp] theorem failEncode_rxexp (c : ResultCode) : (s.failEncode c).rxexp = s.rxexp := rfl
@[simp] theorem failEncode_rxplen (c : ResultCode) : (s.failEncode c).rxplen = s.rxplen := rfl
@[simp] theorem failEncode_rxcrcCalc (c : ResultCode) : (s.failEncode c).rxcrcCalc = s.rxcrcCalc := rfl
@[simp] theorem failEncode_rxcrcRecv (c : ResultCode) : (s.failEncode c).rxcrcRecv = s.rxcrcRecv := rfl
@[simp] theorem failEncode_mem (c : ResultCode) : (s.failEncode c).mem = s.mem := rfl
@[simp] theorem failEncode_epoch (c : ResultCode) : (s.failEncode c).epoch = s.epoch := rfl
@[simp] theorem failEncode_pending (c : ResultCode) : (s.failEncode c).pending = s.pending := rfl
@[simp] theorem failEncode_response (c : ResultCode) : (s.failEncode c).response = s.response := rfl

@[simp] theorem failValidate_achk (c : ResultCode) : (s.failValidate c).achk = s.achk := rfl
@[simp] theorem failValidate_result (c : ResultCode) : (s.failValidate c).result = c := rfl
@[simp] theorem failValidate_err (c : ResultCode) : (s.failValidate c).err = (s.err || c.failed) := rfl
@[simp] theorem failValidate_acc (c : ResultCode) : (s.failValidate c).acc = s.acc := rfl
@[simp] theorem failValidate_txaddr (c : ResultCode) : (s.failValidate c).txaddr = s.txaddr := rfl
@[simp] theorem failValidate_txlen (c : ResultCode) : (s.failValidate c).txlen = s.txlen := rfl
@[simp] theorem failValidate_txflen (c : ResultCode) : (s.failValidate c).txflen = s.txflen := rfl
@[simp] theorem failValidate_rxlen (c : ResultCode) : (s.failValidate c).rxlen = s.rxlen := rfl
@[simp] theorem failValidate_rxexp (c : ResultCode) : (s.failValidate c).rxexp = s.rxexp := rfl
@[simp] theorem failValidate_rxplen (c : ResultCode) : (s.failValidate c).rxplen = 0 := rfl
@[simp] theorem failValidate_rxcrcCalc (c : ResultCode) : (s.failValidate c).rxcrcCalc = s.rxcrcCalc := rfl
@[simp] theorem failValidate_rxcrcRecv (c : ResultCode) : (s.failValidate c).rxcrcRecv = s.rxcrcRecv := rfl
@[simp] theorem failValidate_mem (c : ResultCode) : (s.failValidate c).mem = s.mem := rfl
@[simp] theorem failValidate_epoch (c : ResultCode) : (s.failValidate c).epoch = s.epoch := rfl
@[simp] theorem failValidate_pending (c : ResultCode) : (s.failValidate c).pending = s.pending := rfl
@[simp] theorem failValidate_response (c : ResultCode) : (s.failValidate c).response = s.response := rfl

/-! What the buffers read as after an update that is no byte's. -/

@[simp] theorem byteAt_setAchk (v : Bool) (x : Nat) : (s.setAchk v).byteAt x = s.byteAt x := rfl
@[simp] theorem txByte_setAchk (v : Bool) (i : Nat) : (s.setAchk v).txByte i = s.txByte i := rfl
@[simp] theorem rxByte_setAchk (v : Bool) (i : Nat) : (s.setAchk v).rxByte i = s.rxByte i := rfl
@[simp] theorem byteAt_setAcc (v : Half) (x : Nat) : (s.setAcc v).byteAt x = s.byteAt x := rfl
@[simp] theorem txByte_setAcc (v : Half) (i : Nat) : (s.setAcc v).txByte i = s.txByte i := rfl
@[simp] theorem rxByte_setAcc (v : Half) (i : Nat) : (s.setAcc v).rxByte i = s.rxByte i := rfl
@[simp] theorem byteAt_setTxaddr (v : Byte) (x : Nat) : (s.setTxaddr v).byteAt x = s.byteAt x := rfl
@[simp] theorem txByte_setTxaddr (v : Byte) (i : Nat) : (s.setTxaddr v).txByte i = s.txByte i := rfl
@[simp] theorem rxByte_setTxaddr (v : Byte) (i : Nat) : (s.setTxaddr v).rxByte i = s.rxByte i := rfl
@[simp] theorem byteAt_setTxlen (v : Len) (x : Nat) : (s.setTxlen v).byteAt x = s.byteAt x := rfl
@[simp] theorem txByte_setTxlen (v : Len) (i : Nat) : (s.setTxlen v).txByte i = s.txByte i := rfl
@[simp] theorem rxByte_setTxlen (v : Len) (i : Nat) : (s.setTxlen v).rxByte i = s.rxByte i := rfl
@[simp] theorem byteAt_setTxflen (v : Len) (x : Nat) : (s.setTxflen v).byteAt x = s.byteAt x := rfl
@[simp] theorem txByte_setTxflen (v : Len) (i : Nat) : (s.setTxflen v).txByte i = s.txByte i := rfl
@[simp] theorem rxByte_setTxflen (v : Len) (i : Nat) : (s.setTxflen v).rxByte i = s.rxByte i := rfl
@[simp] theorem byteAt_setRxlen (v : Len) (x : Nat) : (s.setRxlen v).byteAt x = s.byteAt x := rfl
@[simp] theorem txByte_setRxlen (v : Len) (i : Nat) : (s.setRxlen v).txByte i = s.txByte i := rfl
@[simp] theorem rxByte_setRxlen (v : Len) (i : Nat) : (s.setRxlen v).rxByte i = s.rxByte i := rfl
@[simp] theorem byteAt_setRxexp (v : Byte) (x : Nat) : (s.setRxexp v).byteAt x = s.byteAt x := rfl
@[simp] theorem txByte_setRxexp (v : Byte) (i : Nat) : (s.setRxexp v).txByte i = s.txByte i := rfl
@[simp] theorem rxByte_setRxexp (v : Byte) (i : Nat) : (s.setRxexp v).rxByte i = s.rxByte i := rfl
@[simp] theorem byteAt_setRxplen (v : Len) (x : Nat) : (s.setRxplen v).byteAt x = s.byteAt x := rfl
@[simp] theorem txByte_setRxplen (v : Len) (i : Nat) : (s.setRxplen v).txByte i = s.txByte i := rfl
@[simp] theorem rxByte_setRxplen (v : Len) (i : Nat) : (s.setRxplen v).rxByte i = s.rxByte i := rfl
@[simp] theorem byteAt_setRxcrc (c r : Half) (x : Nat) : (s.setRxcrc c r).byteAt x = s.byteAt x := rfl
@[simp] theorem txByte_setRxcrc (c r : Half) (i : Nat) : (s.setRxcrc c r).txByte i = s.txByte i := rfl
@[simp] theorem rxByte_setRxcrc (c r : Half) (i : Nat) : (s.setRxcrc c r).rxByte i = s.rxByte i := rfl
@[simp] theorem byteAt_respond (r : Response) (x : Nat) : (s.respond r).byteAt x = s.byteAt x := rfl
@[simp] theorem txByte_respond (r : Response) (i : Nat) : (s.respond r).txByte i = s.txByte i := rfl
@[simp] theorem rxByte_respond (r : Response) (i : Nat) : (s.respond r).rxByte i = s.rxByte i := rfl
@[simp] theorem byteAt_setPending (p : List HostStep) (x : Nat) : (s.setPending p).byteAt x = s.byteAt x := rfl
@[simp] theorem txByte_setPending (p : List HostStep) (i : Nat) : (s.setPending p).txByte i = s.txByte i := rfl
@[simp] theorem rxByte_setPending (p : List HostStep) (i : Nat) : (s.setPending p).rxByte i = s.rxByte i := rfl
@[simp] theorem byteAt_report (c : ResultCode) (x : Nat) : (s.report c).byteAt x = s.byteAt x := rfl
@[simp] theorem txByte_report (c : ResultCode) (i : Nat) : (s.report c).txByte i = s.txByte i := rfl
@[simp] theorem rxByte_report (c : ResultCode) (i : Nat) : (s.report c).rxByte i = s.rxByte i := rfl
@[simp] theorem byteAt_clearStatus (x : Nat) : s.clearStatus.byteAt x = s.byteAt x := rfl
@[simp] theorem txByte_clearStatus (i : Nat) : s.clearStatus.txByte i = s.txByte i := rfl
@[simp] theorem rxByte_clearStatus (i : Nat) : s.clearStatus.rxByte i = s.rxByte i := rfl
@[simp] theorem byteAt_failEncode (c : ResultCode) (x : Nat) : (s.failEncode c).byteAt x = s.byteAt x := rfl
@[simp] theorem txByte_failEncode (c : ResultCode) (i : Nat) : (s.failEncode c).txByte i = s.txByte i := rfl
@[simp] theorem rxByte_failEncode (c : ResultCode) (i : Nat) : (s.failEncode c).rxByte i = s.rxByte i := rfl
@[simp] theorem byteAt_failValidate (c : ResultCode) (x : Nat) : (s.failValidate c).byteAt x = s.byteAt x := rfl
@[simp] theorem txByte_failValidate (c : ResultCode) (i : Nat) : (s.failValidate c).txByte i = s.txByte i := rfl
@[simp] theorem rxByte_failValidate (c : ResultCode) (i : Nat) : (s.failValidate c).rxByte i = s.rxByte i := rfl

end Sys2Proof.Machine.State
end

