-- ==== Sys2Proof/Laws/Memory.lean ====
section
/-! SUPPORT. The laws of the buffers: a read after a write, the bytes a write leaves alone, and the canonical form. -/

namespace Sys2Proof.Machine

namespace Memory

/-- A read after a write to the same place gives the byte written. -/
@[simp] theorem lookup_write_same (m : Memory) (a : Nat) (b : Byte) : (m.write a b).lookup a = some b := by
  induction m with
  | nil => simp [Memory.write, Memory.lookup]
  | cons c m ih =>
    obtain ⟨c, x⟩ := c
    by_cases h : a < c
    · simp [Memory.write, Memory.lookup, h]
    · by_cases h' : a = c
      · simp [Memory.write, Memory.lookup, h']
      · simp [Memory.write, Memory.lookup, h, h', Ne.symm h', ih]

/-- A write leaves every other place alone. -/
theorem lookup_write_other (m : Memory) {a a' : Nat} (b : Byte) (h : a' ≠ a) :
    (m.write a b).lookup a' = m.lookup a' := by
  induction m with
  | nil => simp [Memory.write, Memory.lookup, Ne.symm h]
  | cons c m ih =>
    obtain ⟨c, x⟩ := c
    simp only [Memory.write]
    split
    · simp [Memory.lookup, Ne.symm h]
    · split
      · next h' => subst h'; simp [Memory.lookup, Ne.symm h]
      · simp [Memory.lookup, ih]

/-- The places listed after a write. -/
theorem mem_write {m : Memory} {a : Nat} {b : Byte} {c : Host.Cell} (h : c ∈ m.write a b) : c = (a, b) ∨ c ∈ m := by
  induction m with
  | nil => simpa [Memory.write] using h
  | cons d m ih =>
    simp only [Memory.write] at h
    split at h
    · simpa using h
    · split at h
      · rcases List.mem_cons.mp h with rfl | h
        · exact .inl rfl
        · exact .inr (List.mem_cons_of_mem _ h)
      · rcases List.mem_cons.mp h with rfl | h
        · exact .inr List.mem_cons_self
        · exact (ih h).imp_right (List.mem_cons_of_mem _)

/-- A write keeps the canonical form. -/
theorem wf_write {m : Memory} (a : Nat) (b : Byte) (h : m.wf) : (m.write a b).wf := by
  induction m with
  | nil => simp [Memory.write, Memory.wf]
  | cons d m ih =>
    obtain ⟨c, x⟩ := d
    simp only [Memory.wf, List.map_cons, List.pairwise_cons, List.mem_map, forall_exists_index, and_imp,
      forall_apply_eq_imp_iff₂] at h
    simp only [Memory.write]
    split
    · next hlt =>
      simp only [Memory.wf, List.map_cons, List.pairwise_cons, List.mem_cons, List.mem_map, forall_eq_or_imp,
        forall_exists_index, and_imp, forall_apply_eq_imp_iff₂]
      exact ⟨⟨hlt, fun d hd => hlt.trans (h.1 d hd)⟩, h⟩
    · split
      · next heq =>
        subst heq
        simpa [Memory.wf] using h
      · next hlt hne =>
        simp only [Memory.wf, List.map_cons, List.pairwise_cons, List.mem_map, forall_exists_index, and_imp,
          forall_apply_eq_imp_iff₂]
        refine ⟨fun d hd => ?_, ih h.2⟩
        rcases mem_write hd with rfl | hd
        · exact lt_of_le_of_ne (Nat.le_of_not_lt hlt) (Ne.symm hne)
        · exact h.1 d hd

/-- The empty memory of reset has the canonical form. -/
theorem wf_nil : Memory.wf [] := List.Pairwise.nil

/-- Of two writes to one place the last counts. -/
theorem write_write_same (m : Memory) (a : Nat) (b b' : Byte) : (m.write a b).write a b' = m.write a b' := by
  induction m with
  | nil => simp [Memory.write]
  | cons d m ih =>
    obtain ⟨c, x⟩ := d
    by_cases h : a < c
    · simp [Memory.write, h]
    · by_cases h' : a = c
      · simp [Memory.write, h']
      · simp [Memory.write, h, h', ih]

/-- Writes to two places commute. -/
theorem write_comm (m : Memory) {a a' : Nat} (b b' : Byte) (h : a ≠ a') :
    (m.write a b).write a' b' = (m.write a' b').write a b := by
  induction m with
  | nil =>
    rcases Nat.lt_or_gt_of_ne h with hlt | hlt <;>
      simp [Memory.write, h, h.symm, hlt, Nat.not_lt.mpr hlt.le]
  | cons d m ih =>
    obtain ⟨c, x⟩ := d
    rcases Nat.lt_trichotomy a c with h1 | h1 | h1 <;> rcases Nat.lt_trichotomy a' c with h2 | h2 | h2 <;>
      rcases Nat.lt_or_gt_of_ne h with h3 | h3 <;>
      first
      | omega
      | simp [Memory.write, h1, h2, h3, h, h.symm, ih, Nat.not_lt.mpr h1.le, Nat.not_lt.mpr h2.le,
          Nat.not_lt.mpr h3.le, ne_of_gt h1, ne_of_gt h2]
      | (subst h1; simp [Memory.write, h2, h, h.symm, Nat.not_lt.mpr h2.le])
      | (subst h2; simp [Memory.write, h1, h, h.symm, Nat.not_lt.mpr h1.le])

end Memory

namespace State

variable (s : State)

@[simp] theorem byteAt_writeByte_same (a : Nat) (b : Byte) : (s.writeByte a b).byteAt a = b := by
  simp [byteAt]

theorem byteAt_writeByte_other {a a' : Nat} (b : Byte) (h : a' ≠ a) :
    (s.writeByte a b).byteAt a' = s.byteAt a' := by
  simp [byteAt, Memory.lookup_write_other _ b h]

/-- A byte depends on the memory and the draws alone. -/
theorem byteAt_congr {s t : State} (hm : t.mem = s.mem) (he : t.epoch = s.epoch) (a : Nat) :
    t.byteAt a = s.byteAt a := by
  simp [byteAt, hm, he]

@[simp] theorem txByte_writeTx_same (i : Nat) (b : Byte) : (s.writeTx i b).txByte i = b := by
  simp [txByte, writeTx]

theorem txByte_writeTx_other {i j : Nat} (b : Byte) (h : j ≠ i) : (s.writeTx i b).txByte j = s.txByte j :=
  byteAt_writeByte_other s b (by simp only [txOffset]; omega)

@[simp] theorem rxByte_writeRx_same (i : Nat) (b : Byte) : (s.writeRx i b).rxByte i = b := by
  simp [rxByte, writeRx]

theorem rxByte_writeRx_other {i j : Nat} (b : Byte) (h : j ≠ i) : (s.writeRx i b).rxByte j = s.rxByte j :=
  byteAt_writeByte_other s b (by simp only [rxOffset]; omega)

/-- A byte of TXBUF written leaves RXBUF alone (the buffers do not overlap, R37). -/
theorem rxByte_writeTx {i j : Nat} (b : Byte) (h : i < 256) : (s.writeTx i b).rxByte j = s.rxByte j :=
  byteAt_writeByte_other s b (by simp only [rxOffset, txOffset]; omega)

/-- A byte of RXBUF written leaves TXBUF alone (R37). -/
theorem txByte_writeRx {i j : Nat} (b : Byte) (h : j < 256) : (s.writeRx i b).txByte j = s.txByte j :=
  byteAt_writeByte_other s b (by simp only [rxOffset, txOffset]; omega)

end State

end Sys2Proof.Machine
end

