-- ==== Sys2Proof/Laws/Step.lean ====
section
/-! SUPPORT. What the shared operations, an access and a step can do: one lemma each, cited instead of unfolding. -/

namespace Sys2Proof.Machine

/-- A failure is any code but OK. -/
theorem ResultCode.failed_eq_true (c : ResultCode) : c.failed = true ↔ c ≠ .ok := by
  cases c <;> simp [ResultCode.failed]

/-- `putFrame` writes three bytes of TXBUF and no register. -/
theorem State.putFrame_eq (s : State) (len : Nat) (r : Half) :
    s.putFrame len r = { s with mem := (s.putFrame len r).mem } := rfl

/-- FRM.ENCODE reports a bad length, or puts a frame. -/
theorem execFrmEncode_cases (s : State) :
    ((s.txlen.toNat < 1 ∨ Config.maxPdu < s.txlen.toNat) ∧ execFrmEncode s = .next (s.failEncode .lengthRange)) ∨
    (1 ≤ s.txlen.toNat ∧ s.txlen.toNat ≤ Config.maxPdu ∧
      execFrmEncode s = .next ((((s.putFrame s.txlen.toNat (s.frameCrc s.txlen.toNat)).setAcc
        (s.frameCrc s.txlen.toNat)).setTxflen (BitVec.ofNat 9 (s.txlen.toNat + 3))).report .ok)) := by
  by_cases h : s.txlen.toNat < 1 ∨ Config.maxPdu < s.txlen.toNat
  · exact .inl ⟨h, by simp only [execFrmEncode, if_pos h]⟩
  · refine .inr ⟨by omega, by omega, ?_⟩
    simp only [execFrmEncode, if_neg h]

/-- The state FRM.VALIDATE's CRC step leaves (R84). -/
def State.crcChecked (s : State) : State :=
  (s.setAcc (s.computedCrc s.rxlen.toNat)).setRxcrc (s.computedCrc s.rxlen.toNat) (s.receivedCrc s.rxlen.toNat)

/-- FRM.VALIDATE ends in one of five ways. -/
theorem execFrmValidate_cases (s : State) :
    (s.rxlen.toNat < 4 ∧ execFrmValidate s = .next (s.failValidate .frameTooShort)) ∨
    (256 < s.rxlen.toNat ∧ execFrmValidate s = .next (s.failValidate .frameTooLong)) ∨
    (4 ≤ s.rxlen.toNat ∧ s.rxlen.toNat ≤ 256 ∧ s.computedCrc s.rxlen.toNat ≠ s.receivedCrc s.rxlen.toNat ∧
      execFrmValidate s = .next (s.crcChecked.failValidate .crcMismatch)) ∨
    (4 ≤ s.rxlen.toNat ∧ s.rxlen.toNat ≤ 256 ∧ s.computedCrc s.rxlen.toNat = s.receivedCrc s.rxlen.toNat ∧
      s.addressRefused = true ∧
      execFrmValidate s = .next (s.crcChecked.failValidate .unexpectedSlaveAddress)) ∨
    (4 ≤ s.rxlen.toNat ∧ s.rxlen.toNat ≤ 256 ∧ s.computedCrc s.rxlen.toNat = s.receivedCrc s.rxlen.toNat ∧
      s.addressRefused = false ∧
      execFrmValidate s =
        .next ((s.crcChecked.setRxplen (BitVec.ofNat 9 (s.rxlen.toNat - 3))).report .ok)) := by
  by_cases h1 : s.rxlen.toNat < 4
  · exact .inl ⟨h1, by simp [execFrmValidate, h1]⟩
  by_cases h2 : 256 < s.rxlen.toNat
  · exact .inr (.inl ⟨h2, by simp [execFrmValidate, h1, h2]⟩)
  by_cases h3 : s.computedCrc s.rxlen.toNat = s.receivedCrc s.rxlen.toNat
  · by_cases h4 : s.addressRefused = true
    · exact .inr (.inr (.inr (.inl ⟨by omega, by omega, h3, h4,
        by simp [execFrmValidate, h1, h2, h3, h4, State.crcChecked]⟩)))
    · exact .inr (.inr (.inr (.inr ⟨by omega, by omega, h3, by simpa using h4,
        by simp [execFrmValidate, h1, h2, h3, h4, State.crcChecked]⟩)))
  · exact .inr (.inr (.inl ⟨by omega, by omega, h3, by simp [execFrmValidate, h1, h2, h3, State.crcChecked]⟩))

/-- Every command has a next state. -/
theorem exec_next (i : Instr) (s : State) : ∃ t, exec i s = .next t := by
  cases i with
  | crcInit => exact ⟨_, rfl⟩
  | crcByte b => exact ⟨_, rfl⟩
  | frmEncode => rcases execFrmEncode_cases s with ⟨-, h⟩ | ⟨-, -, h⟩ <;> exact ⟨_, h⟩
  | frmValidate =>
    rcases execFrmValidate_cases s with ⟨-, h⟩ | ⟨-, h⟩ | ⟨-, -, -, h⟩ | ⟨-, -, -, -, h⟩ | ⟨-, -, -, -, h⟩ <;>
      exact ⟨_, h⟩
  | stsClear => exact ⟨_, rfl⟩

/-- A command word runs its command, or reports that it has none. -/
theorem executeCommand_cases (w : Word) (s : State) :
    (∃ i, decode w = .command i ∧ executeCommand w s = exec i s) ∨
    (∃ why, decode w = .illegal why ∧ executeCommand w s = .next (s.report .illegalCommand)) := by
  cases h : decode w with
  | command i => exact .inl ⟨i, rfl, by simp [executeCommand, h]⟩
  | illegal why => exact .inr ⟨why, rfl, by simp [executeCommand, h, illegalCommand]⟩

/-- The places of the window (R37), by offset. -/
theorem mapOffset_cases (off : Offset) :
    (∃ r, mapOffset off = some (.reg r) ∧ off.toNat = regOffset r) ∨
    (∃ i, i < 256 ∧ mapOffset off = some (.txbuf i) ∧ off.toNat / 4 = txOffset i / 4) ∨
    (∃ i, i < 256 ∧ mapOffset off = some (.rxbuf i) ∧ off.toNat / 4 = rxOffset i / 4) ∨
    (mapOffset off = none ∧ ((off.toNat < 0x400 ∧ ∀ r, regOffset r ≠ off.toNat) ∨ 0xC00 ≤ off.toNat)) := by
  by_cases h1 : off.toNat < 0x400
  · cases hf : allRegs.find? (fun r => regOffset r == off.toNat) with
    | some r =>
      refine .inl ⟨r, by simp [mapOffset, h1, hf], ?_⟩
      have := List.find?_some hf
      simpa using Eq.symm (by simpa using this)
    | none =>
      refine .inr (.inr (.inr ⟨by simp [mapOffset, h1, hf], .inl ⟨h1, fun r => ?_⟩⟩))
      have := List.find?_eq_none.mp hf r (by cases r <;> simp [allRegs])
      simpa using this
  · by_cases h2 : off.toNat < 0x800
    · exact .inr (.inl ⟨(off.toNat - 0x400) / 4, by omega, by simp [mapOffset, h1, h2],
        by simp only [txOffset]; omega⟩)
    · by_cases h3 : off.toNat < 0xC00
      · exact .inr (.inr (.inl ⟨(off.toNat - 0x800) / 4, by omega, by simp [mapOffset, h1, h2, h3],
          by simp only [rxOffset]; omega⟩))
      · exact .inr (.inr (.inr ⟨by simp [mapOffset, h1, h2, h3], .inr (by omega)⟩))

/-- Every register is where the map puts it (R14). -/
@[simp] theorem mapOffset_reg (r : Reg) : mapOffset (Place.reg r).offset = some (.reg r) := by cases r <;> decide

/-- The number of a buffer word's offset (R43). -/
theorem toNat_bufferOffset {base i : Nat} (hb : base ≤ 0x800) (h : i < 256) :
    (BitVec.ofNat 12 (base + 4 * i)).toNat = base + 4 * i := by
  rw [BitVec.toNat_ofNat, Nat.mod_eq_of_lt (by omega)]

/-- Every byte of TXBUF is where the map puts it (R43). -/
theorem mapOffset_txbuf {i : Nat} (h : i < 256) : mapOffset (BitVec.ofNat 12 (txOffset i)) = some (.txbuf i) := by
  have e : (BitVec.ofNat 12 (txOffset i)).toNat = 0x400 + 4 * i := toNat_bufferOffset (by omega) h
  simp only [mapOffset, e]
  rw [if_neg (by omega), if_pos (by omega)]
  simp

/-- Every byte of RXBUF is where the map puts it (R43). -/
theorem mapOffset_rxbuf {i : Nat} (h : i < 256) : mapOffset (BitVec.ofNat 12 (rxOffset i)) = some (.rxbuf i) := by
  have e : (BitVec.ofNat 12 (rxOffset i)).toNat = 0x800 + 4 * i := toNat_bufferOffset (by omega) h
  simp only [mapOffset, e]
  rw [if_neg (by omega), if_neg (by omega), if_pos (by omega)]
  simp

/-- Alignment (R39) as a number. -/
theorem Access.aligned_iff (a : Access) : a.aligned = true ↔ a.off.toNat % 4 = 0 := by
  simp only [Access.aligned, beq_iff_eq, ← BitVec.toNat_inj, BitVec.extractLsb'_toNat]
  simp

/-- A 32-bit read of a mapped place. -/
theorem access_read32 {off : Offset} {p : Place} (ha : off.toNat % 4 = 0) (hm : mapOffset off = some p) (s : State) :
    access (.read32 off) s = memRead p s := by
  have h : (Access.read32 off).aligned = true := (Access.aligned_iff _).2 ha
  have hw : (Access.read32 off).fullWidth = true := rfl
  have ho : (Access.read32 off).off = off := rfl
  simp [access, h, hw, ho, hm, show (Access.read32 off).op = .read from rfl]

/-- A 32-bit write to a mapped place. -/
theorem access_write32 {off : Offset} {p : Place} (ha : off.toNat % 4 = 0) (hm : mapOffset off = some p) (v : Word)
    (s : State) : access (.write32 off v) s = memWrite p v s := by
  have h : (Access.write32 off v).aligned = true := (Access.aligned_iff _).2 ha
  have hw : (Access.write32 off v).fullWidth = true := rfl
  have ho : (Access.write32 off v).off = off := rfl
  simp [access, h, hw, ho, hm, show (Access.write32 off v).op = .write v from rfl]

/-- A write to CMD runs its word (R17, R44). -/
theorem access_cmd (w : Word) (s : State) :
    access (.write32 (Place.reg .cmd).offset w) s = executeCommand w (s.respond .writeDone) :=
  access_write32 (by decide) (mapOffset_reg .cmd) w s

/-- CMD stands at its own offset only. -/
theorem mapOffset_cmd {off : Offset} (h : mapOffset off = some (.reg .cmd)) : off = 0x004 := by
  rcases mapOffset_cases off with ⟨r, e, q⟩ | ⟨i, _, e, _⟩ | ⟨i, _, e, _⟩ | ⟨e, _⟩ <;> rw [h] at e <;> cases e
  exact BitVec.eq_of_toNat_eq q

/-- Two aligned offsets do not share a place. -/
theorem mapOffset_inj {off off' : Offset} {p : Place} (ha : off.toNat % 4 = 0) (ha' : off'.toNat % 4 = 0)
    (h : mapOffset off = some p) (h' : mapOffset off' = some p) : off = off' := by
  refine BitVec.eq_of_toNat_eq ?_
  rcases mapOffset_cases off with ⟨r, e, q⟩ | ⟨i, _, e, q⟩ | ⟨i, _, e, q⟩ | ⟨e, _⟩ <;> rw [h] at e <;> cases e <;>
    rcases mapOffset_cases off' with ⟨r, e, q'⟩ | ⟨i, _, e, q'⟩ | ⟨i, _, e, q'⟩ | ⟨e, _⟩ <;> rw [h'] at e <;>
    cases e <;> omega

/-- The map of R37 as numbers: the aligned offsets with a place. -/
theorem mappedOffset_iff (off : Offset) :
    mappedOffset off.toNat = true ↔ off.toNat % 4 = 0 ∧ ∃ p, mapOffset off = some p := by
  simp only [mappedOffset, decide_eq_true_eq]
  rcases mapOffset_cases off with ⟨r, e, h⟩ | ⟨i, hi, e, h⟩ | ⟨i, hi, e, h⟩ | ⟨e, h⟩ <;> rw [e]
  · have : regOffset r % 4 = 0 ∧ regOffset r ≤ 0x02C := by cases r <;> decide
    simp only [Option.some.injEq, exists_eq', and_true]
    omega
  · simp only [txOffset] at h
    simp only [Option.some.injEq, exists_eq', and_true]
    omega
  · simp only [rxOffset] at h
    simp only [Option.some.injEq, exists_eq', and_true]
    omega
  · simp only [reduceCtorEq, exists_false, and_false, iff_false]
    rcases h with ⟨h1, h2⟩ | h
    · intro h4
      have := h2 .ctrl; have := h2 .cmd; have := h2 .status; have := h2 .crc; have := h2 .crcw; have := h2 .txaddr
      have := h2 .txlen; have := h2 .txflen; have := h2 .rxlen; have := h2 .rxexp; have := h2 .rxplen; have := h2 .rxcrc
      simp only [regOffset] at *
      omega
    · omega

/-- A write to a place runs the command, if the place is CMD, or stores. -/
theorem memWrite_cases (p : Place) (v : Word) (s : State) :
    (p = .reg .cmd ∧ memWrite p v s = executeCommand v (s.respond .writeDone)) ∨
    (p ≠ .reg .cmd ∧ memWrite p v s = .next ((s.writePlace v p).respond .writeDone)) := by
  rcases p with r | i | i
  · cases r <;> simp [memWrite]
  · simp [memWrite]
  · simp [memWrite]

/-- An access is refused by one of the three checks, in their order, or performed. -/
theorem access_cases (a : Access) (s : State) :
    (a.fullWidth = false ∧ access a s = .fault (.busError a.off .width)) ∨
    (a.fullWidth = true ∧ a.aligned = false ∧ access a s = .fault (.busError a.off .misaligned)) ∨
    (a.fullWidth = true ∧ a.aligned = true ∧ mapOffset a.off = none ∧
      access a s = .fault (.busError a.off .unmapped)) ∨
    (∃ p, a.fullWidth = true ∧ a.aligned = true ∧ mapOffset a.off = some p ∧
      ((a.op = .read ∧ access a s = .next (s.respond (.readData (s.readPlace p)))) ∨
       (∃ v, a.op = .write v ∧ access a s = memWrite p v s))) := by
  cases hw : a.fullWidth with
  | false => exact .inl ⟨rfl, by simp [access, hw, raiseBusError]⟩
  | true =>
    cases ha : a.aligned with
    | false => exact .inr (.inl ⟨rfl, rfl, by simp [access, hw, ha, raiseBusError]⟩)
    | true =>
      cases hm : mapOffset a.off with
      | none => exact .inr (.inr (.inl ⟨rfl, rfl, rfl, by simp [access, hw, ha, hm, raiseBusError]⟩))
      | some p =>
        refine .inr (.inr (.inr ⟨p, rfl, rfl, rfl, ?_⟩))
        cases ho : a.op with
        | read => exact .inl ⟨rfl, by simp [access, hw, ha, hm, ho, memRead]⟩
        | write v => exact .inr ⟨v, rfl, by simp [access, hw, ha, hm, ho]⟩

/-- A step with a next state took the host's next step: a read, a store, a command, an illegal command or a reset. -/
theorem step_cases {s t : State} (h : step s = .next t) :
    ∃ rest,
      (∃ a p, s.pending = .access a :: rest ∧ mapOffset a.off = some p ∧ a.op = .read ∧
        t = (s.setPending rest).respond (.readData ((s.setPending rest).readPlace p))) ∨
      (∃ a p v, s.pending = .access a :: rest ∧ mapOffset a.off = some p ∧ a.op = .write v ∧ p ≠ .reg .cmd ∧
        t = ((s.setPending rest).writePlace v p).respond .writeDone) ∨
      (∃ a v i, s.pending = .access a :: rest ∧ a.op = .write v ∧ decode v = .command i ∧
        exec i ((s.setPending rest).respond .writeDone) = .next t) ∨
      (∃ a v why, s.pending = .access a :: rest ∧ a.op = .write v ∧ decode v = .illegal why ∧
        t = ((s.setPending rest).respond .writeDone).report .illegalCommand) ∨
      (∃ held, s.pending = .reset held :: rest ∧ t = (s.setPending rest).resetBlock) := by
  cases hp : s.pending with
  | nil => simp [step, hp] at h
  | cons x rest =>
    refine ⟨rest, ?_⟩
    simp only [step, hp] at h
    cases x with
    | accessDuringReset a => simp [hostStep] at h
    | reset held =>
      simp only [hostStep, Host.Outcome.next.injEq] at h
      exact .inr (.inr (.inr (.inr ⟨held, rfl, h.symm⟩)))
    | access a =>
      simp only [hostStep] at h
      rcases access_cases a (s.setPending rest) with ⟨-, e⟩ | ⟨-, -, e⟩ | ⟨-, -, -, e⟩ | ⟨p, -, -, hm, hop⟩
      · simp [e] at h
      · simp [e] at h
      · simp [e] at h
      · rcases hop with ⟨ho, e⟩ | ⟨v, ho, e⟩
        · simp only [e, Host.Outcome.next.injEq] at h
          exact .inl ⟨a, p, rfl, hm, ho, h.symm⟩
        · rw [e] at h
          rcases memWrite_cases p v (s.setPending rest) with ⟨-, e'⟩ | ⟨hne, e'⟩
          · rw [e'] at h
            rcases executeCommand_cases v ((s.setPending rest).respond .writeDone) with
              ⟨i, hd, e2⟩ | ⟨why, hd, e2⟩
            · exact .inr (.inr (.inl ⟨a, v, i, rfl, ho, hd, e2 ▸ h⟩))
            · rw [e2] at h
              simp only [Host.Outcome.next.injEq] at h
              exact .inr (.inr (.inr (.inl ⟨a, v, why, rfl, ho, hd, h.symm⟩)))
          · rw [e'] at h
            simp only [Host.Outcome.next.injEq] at h
            exact .inr (.inl ⟨a, p, v, rfl, hm, ho, hne, h.symm⟩)

/-- A CMD write that is next runs its word (R44). -/
theorem step_cmdWrite {s : State} {w : Word} {rest : List HostStep} (h : s.pending = cmdWrite w :: rest) :
    step s = executeCommand w ((s.setPending rest).respond .writeDone) := by
  rw [← access_cmd]
  simp [step, h, cmdWrite, hostStep]

/-- A command word has a next state (R95). -/
theorem executeCommand_next (w : Word) (s : State) : ∃ t, executeCommand w s = .next t := by
  rcases executeCommand_cases w s with ⟨i, -, e⟩ | ⟨_, -, e⟩
  · exact e ▸ exec_next i s
  · exact ⟨_, e⟩

/-- A command leaves the host's coming steps and the draws alone. -/
theorem executeCommand_own {w : Word} {s t : State} (h : executeCommand w s = .next t) :
    t.pending = s.pending ∧ t.epoch = s.epoch := by
  rcases executeCommand_cases w s with ⟨i, -, e⟩ | ⟨_, -, e⟩ <;> rw [e] at h
  · cases i with
    | crcInit => cases h; exact ⟨rfl, rfl⟩
    | crcByte b => cases h; exact ⟨rfl, rfl⟩
    | stsClear => cases h; exact ⟨rfl, rfl⟩
    | frmEncode =>
      rcases execFrmEncode_cases s with ⟨-, e⟩ | ⟨-, -, e⟩ <;> rw [exec, e] at h <;> cases h <;> exact ⟨rfl, rfl⟩
    | frmValidate =>
      rcases execFrmValidate_cases s with ⟨-, e⟩ | ⟨-, e⟩ | ⟨-, -, -, e⟩ | ⟨-, -, -, -, e⟩ | ⟨-, -, -, -, e⟩ <;>
        rw [exec, e] at h <;> cases h <;> exact ⟨rfl, rfl⟩
  · cases h; exact ⟨rfl, rfl⟩

/-- A plain write leaves what no input is (R42, R94): status, the CRC accumulator, every output, the model's own
fields. -/
theorem State.writePlace_outputs (s : State) (v : Word) (p : Place) :
    (s.writePlace v p).result = s.result ∧ (s.writePlace v p).err = s.err ∧ (s.writePlace v p).acc = s.acc ∧
    (s.writePlace v p).txflen = s.txflen ∧ (s.writePlace v p).rxplen = s.rxplen ∧
    (s.writePlace v p).rxcrcCalc = s.rxcrcCalc ∧ (s.writePlace v p).rxcrcRecv = s.rxcrcRecv ∧
    (s.writePlace v p).epoch = s.epoch ∧ (s.writePlace v p).pending = s.pending ∧
    (s.writePlace v p).response = s.response := by
  rcases p with r | i | i
  · cases r <;> simp [writePlace, writeReg, setAchk, setTxaddr, setTxlen, setRxlen, setRxexp]
  · simp [writePlace, writeTx, writeByte]
  · simp [writePlace, writeRx, writeByte]

/-- A word written is a command word exactly when it is written to CMD. -/
theorem commandWord_write {a : Access} {v : Word} (h : a.op = .write v) :
    (HostStep.access a).commandWord = if a.off = 0x004 then some v else none := by
  obtain ⟨w, l, o, op⟩ := a
  cases h
  rfl

/-- A read is no command. -/
theorem commandWord_read {a : Access} (h : a.op = .read) : (HostStep.access a).commandWord = none := by
  obtain ⟨w, l, o, op⟩ := a
  cases h
  rfl

/-- An admitted access that is next runs the command word it writes, or leaves status, the accumulator, the outputs
and the draws alone. -/
theorem step_admitted {s : State} {a : Access} {rest : List HostStep} (hp : s.pending = .access a :: rest)
    (ha : a.admitted = true) :
    (∃ w, (HostStep.access a).commandWord = some w ∧
      step s = executeCommand w ((s.setPending rest).respond .writeDone)) ∨
    ((HostStep.access a).commandWord = none ∧ ∃ t, step s = .next t ∧ t.pending = rest ∧ t.result = s.result ∧
      t.err = s.err ∧ t.acc = s.acc ∧ t.txflen = s.txflen ∧ t.rxplen = s.rxplen ∧ t.rxcrcCalc = s.rxcrcCalc ∧
      t.rxcrcRecv = s.rxcrcRecv ∧ t.epoch = s.epoch) := by
  have hs : step s = access a (s.setPending rest) := by simp [step, hp, hostStep]
  simp only [Access.admitted, Bool.and_eq_true, mappedOffset_iff, ← Access.aligned_iff] at ha
  obtain ⟨hw, hal, p, hm⟩ := ha
  rw [hs]
  rcases access_cases a (s.setPending rest) with ⟨g, -⟩ | ⟨-, g, -⟩ | ⟨-, -, g, -⟩ | ⟨q, -, -, hq, hop⟩
  · simp [hw] at g
  · simp [hal] at g
  · simp [hm] at g
  · rcases hop with ⟨ho, e⟩ | ⟨v, ho, e⟩
    · exact .inr ⟨commandWord_read ho, _, e, rfl, rfl, rfl, rfl, rfl, rfl, rfl, rfl, rfl⟩
    · rw [commandWord_write ho, e]
      rcases memWrite_cases q v (s.setPending rest) with ⟨rfl, e'⟩ | ⟨hne, e'⟩
      · exact .inl ⟨v, if_pos (mapOffset_cmd hq), e'⟩
      · refine .inr ⟨if_neg fun h => hne ?_, _, e', ?_⟩
        · rw [h] at hq
          exact (Option.some.inj ((mapOffset_reg .cmd).symm.trans hq)).symm
        · obtain ⟨h1, h2, h3, h4, h5, h6, h7, h8, h9, -⟩ := (s.setPending rest).writePlace_outputs v q
          exact ⟨h9, h1, h2, h3, h4, h5, h6, h7, h8⟩

/-- A run of no steps. -/
@[simp] theorem run_zero (s : State) : Host.Core.run Sys2Proof.core 0 s = .next s := rfl

/-- A run takes its first step and goes on. -/
theorem run_succ {s t : State} (k : Nat) (h : step s = .next t) :
    Host.Core.run Sys2Proof.core (k + 1) s = Host.Core.run Sys2Proof.core k t := by
  have e := Host.Core.run.eq_2 Sys2Proof.core s k
  have h' : Sys2Proof.core.step s = .next t := h
  rw [h'] at e
  exact e

/-- A run of one step is the step. -/
theorem run_one {s t : State} (h : step s = .next t) : Host.Core.run Sys2Proof.core 1 s = .next t :=
  run_succ 0 h

end Sys2Proof.Machine
end

