-- ==== Sys2Proof/Laws/Frame.lean ====
section
/-! SUPPORT. What a frame leaves in TXBUF (R77), what its CRC covers, and what FRM.VALIDATE's CRC step leaves. -/

namespace Sys2Proof.Machine.State

/-- The CRC of a frame is over the address and the PDU as it stands (R58, R77). -/
theorem frameCrc_eq (s : State) (len : Nat) :
    s.frameCrc len = crc16 (s.txaddr :: (List.range len).map (fun i => s.txByte (i + 1))) := by
  unfold frameCrc txBytes
  rw [List.range_succ_eq_map]
  simp only [List.map_cons, List.map_map, txByte_writeTx_same]
  congr 2
  exact List.map_congr_left fun i _ => txByte_writeTx_other s _ (by simp)

variable (s : State) (len : Nat) (r : Half)

/-- What is listed outside the three bytes of the frame stays as it was, listed or not (R94, 93 U2). -/
theorem lookup_putFrame_other {a : Nat} (h0 : a ≠ txOffset 0) (h1 : a ≠ txOffset (len + 1))
    (h2 : a ≠ txOffset (len + 2)) : (s.putFrame len r).mem.lookup a = s.mem.lookup a := by
  simp only [putFrame, writeTx, writeByte]
  rw [Memory.lookup_write_other _ _ h2, Memory.lookup_write_other _ _ h1, Memory.lookup_write_other _ _ h0]

/-- Only the three bytes of the frame that FRM.ENCODE stores are written (R94). -/
theorem byteAt_putFrame_other {a : Nat} (h0 : a ≠ txOffset 0) (h1 : a ≠ txOffset (len + 1))
    (h2 : a ≠ txOffset (len + 2)) : (s.putFrame len r).byteAt a = s.byteAt a := by
  unfold putFrame writeTx
  rw [byteAt_writeByte_other _ _ h2, byteAt_writeByte_other _ _ h1, byteAt_writeByte_other _ _ h0]

@[simp] theorem txByte_putFrame_zero : (s.putFrame len r).txByte 0 = s.txaddr := by
  unfold putFrame
  rw [txByte_writeTx_other _ _ (by omega), txByte_writeTx_other _ _ (by omega), txByte_writeTx_same]

@[simp] theorem txByte_putFrame_low : (s.putFrame len r).txByte (len + 1) = lowByte r := by
  unfold putFrame
  rw [txByte_writeTx_other _ _ (by omega), txByte_writeTx_same]

@[simp] theorem txByte_putFrame_high : (s.putFrame len r).txByte (len + 2) = highByte r := by
  unfold putFrame
  rw [txByte_writeTx_same]

theorem txByte_putFrame_other {i : Nat} (h0 : i ≠ 0) (h1 : i ≠ len + 1) (h2 : i ≠ len + 2) :
    (s.putFrame len r).txByte i = s.txByte i :=
  byteAt_putFrame_other s len r (by simp only [txOffset]; omega) (by simp only [txOffset]; omega)
    (by simp only [txOffset]; omega)

/-- The receive buffer is no part of it (R37). -/
theorem rxByte_putFrame (h : len + 2 < 256) (i : Nat) : (s.putFrame len r).rxByte i = s.rxByte i :=
  byteAt_putFrame_other s len r (by simp only [txOffset, rxOffset]; omega)
    (by simp only [txOffset, rxOffset]; omega) (by simp only [txOffset, rxOffset]; omega)

/-- A register that is no byte of a buffer. -/
theorem putFrame_regs : (s.putFrame len r).txflen = s.txflen ∧ (s.putFrame len r).rxplen = s.rxplen ∧
    (s.putFrame len r).err = s.err ∧ (s.putFrame len r).result = s.result := ⟨rfl, rfl, rfl, rfl⟩

@[simp] theorem crcChecked_acc : s.crcChecked.acc = s.computedCrc s.rxlen.toNat := rfl
@[simp] theorem crcChecked_rxcrcCalc : s.crcChecked.rxcrcCalc = s.computedCrc s.rxlen.toNat := rfl
@[simp] theorem crcChecked_rxcrcRecv : s.crcChecked.rxcrcRecv = s.receivedCrc s.rxlen.toNat := rfl
@[simp] theorem crcChecked_achk : s.crcChecked.achk = s.achk := rfl
@[simp] theorem crcChecked_result : s.crcChecked.result = s.result := rfl
@[simp] theorem crcChecked_err : s.crcChecked.err = s.err := rfl
@[simp] theorem crcChecked_txaddr : s.crcChecked.txaddr = s.txaddr := rfl
@[simp] theorem crcChecked_txlen : s.crcChecked.txlen = s.txlen := rfl
@[simp] theorem crcChecked_txflen : s.crcChecked.txflen = s.txflen := rfl
@[simp] theorem crcChecked_rxlen : s.crcChecked.rxlen = s.rxlen := rfl
@[simp] theorem crcChecked_rxexp : s.crcChecked.rxexp = s.rxexp := rfl
@[simp] theorem crcChecked_rxplen : s.crcChecked.rxplen = s.rxplen := rfl
@[simp] theorem crcChecked_mem : s.crcChecked.mem = s.mem := rfl
@[simp] theorem crcChecked_epoch : s.crcChecked.epoch = s.epoch := rfl
@[simp] theorem crcChecked_pending : s.crcChecked.pending = s.pending := rfl
@[simp] theorem crcChecked_response : s.crcChecked.response = s.response := rfl

end Sys2Proof.Machine.State
end

