-- ==== Sys2Proof/Laws/PerInstr.lean ====
section
/-! SUPPORT. What holds of every command as a word, one lemma per constructor (LAWS.json). -/

namespace Sys2Proof.Laws.Fields

/-- The encoding of a command sets no reserved bit (R63, R67), and no immediate but CRC.BYTE's. -/
def Statement (i : Instr) : Prop :=
  wordRsv0 (encode i) = 0 ∧ wordRsv1 (encode i) = 0 ∧ ((∀ b, i ≠ .crcByte b) → wordImm8 (encode i) = 0)

theorem crcInit : Statement .crcInit := ⟨by decide, by decide, fun _ => by decide⟩

theorem crcByte (imm8 : Byte) : Statement (.crcByte imm8) := by
  refine ⟨?_, ?_, fun h => absurd rfl (h imm8)⟩ <;>
    (refine BitVec.eq_of_getLsbD_eq fun i hi => ?_
     simp only [wordRsv0, wordRsv1, encode, BitVec.getLsbD_extractLsb', BitVec.getLsbD_or, BitVec.getLsbD_shiftLeft,
       BitVec.getLsbD_setWidth]
     interval_cases i <;> simp)

theorem frmEncode : Statement .frmEncode := ⟨by decide, by decide, fun _ => by decide⟩

theorem frmValidate : Statement .frmValidate := ⟨by decide, by decide, fun _ => by decide⟩

theorem stsClear : Statement .stsClear := ⟨by decide, by decide, fun _ => by decide⟩

end Sys2Proof.Laws.Fields
end

