-- ==== Sys2Proof/Tests/Slice0.lean ====
section
/-! SUPPORT. Tests: expected values from spec/95_test_vectors.md (V-…) and from the encodings written out from
spec/30_encoding.md; and, for every statement with hypotheses, a state and operands that meet them. -/

namespace Sys2Proof.Tests

open Sys2Proof.Machine

/-- The next state of an answer, if it has one. -/
def after : Result → Option State
  | .next t => some t
  | .fault _ => none
  | .refused _ => none

/-- V-ENC-1 before the command: TXADDR 01, TXBUF[1..5] = 03 00 00 00 0A, TXLEN 5. -/
def encodeReady : State :=
  { State.reset with
    txaddr := 0x01, txlen := 5,
    mem := [(0x404, 0x03), (0x408, 0x00), (0x40C, 0x00), (0x410, 0x00), (0x414, 0x0A)] }

/-- V-VAL-1 before the command: RXBUF[0..7] = 01 03 00 00 00 0A C5 CD, RXLEN 8, RXEXP 01. -/
def validateReady : State :=
  { State.reset with
    rxlen := 8, rxexp := 0x01,
    mem := [(0x800, 0x01), (0x804, 0x03), (0x808, 0x00), (0x80C, 0x00), (0x810, 0x00), (0x814, 0x0A),
            (0x818, 0xC5), (0x81C, 0xCD)] }

/-- What a state shows of an outcome: STATUS, RXPLEN, RXCRC, ACC. -/
def verdict (t : State) : Word × Nat × Word × Nat :=
  (t.readReg .status, t.rxplen.toNat, t.readReg .rxcrc, t.acc.toNat)

/-! ### WellFormed: each check refuses an ill-formed statement -/

theorem test_wf_imm8_out_of_range : AsmStmt.wf (.crcByte 256) = false := by decide
theorem test_wf_index_out_of_range : AsmStmt.wf (.txb 256 0) = false ∧ AsmStmt.wf (.rxb 256 0) = false := by decide
theorem test_wf_target_out_of_range :
    AsmStmt.wf (.line (.r32 (.txbuf 256) none)) = false ∧ AsmStmt.wf (.line (.r32 (.rxbuf 256) none)) = false ∧
    AsmStmt.wf (.line (.w32 (.offset 4096) 0)) = false := by decide
theorem test_wf_value_out_of_range :
    AsmStmt.wf (.line (.w32 (.reg .ctrl) 4294967296)) = false ∧
    AsmStmt.wf (.line (.r32 (.reg .ctrl) (some 4294967296))) = false ∧ AsmStmt.wf (.txb 0 4294967296) = false := by
  decide +kernel
theorem test_wf_lists_out_of_range :
    AsmStmt.wf (.crc16 [255, 256]) = false ∧ AsmStmt.wf (.txload 4294967296 []) = false ∧
    AsmStmt.wf (.rxload [4294967296]) = false := by decide
theorem test_wf_buffer_overrun :
    AsmStmt.wf (.txload 1 (List.replicate 256 0)) = false ∧ AsmStmt.wf (.rxload (List.replicate 257 0)) = false := by
  decide +kernel
theorem test_wf_accepts : AsmStmt.wf (.crcByte 255) = true ∧ AsmStmt.wf (.txb 255 255) = true := by decide

/-! ### Decoding: words written out bit by bit from R63 and R65 (RSV1, IMM8, RSV0, OP) -/

theorem test_decode_crcInit : decode 0b00000000000000000000000000000001 = .command .crcInit := by decide
theorem test_decode_crcByte : decode 0b00000000000000001010010100000010 = .command (.crcByte 0b10100101) := by decide
theorem test_decode_frmEncode : decode 0b00000000000000000000000000000011 = .command .frmEncode := by decide
theorem test_decode_frmValidate : decode 0b00000000000000000000000000000100 = .command .frmValidate := by decide
theorem test_decode_stsClear : decode 0b00000000000000000000000000000101 = .command .stsClear := by decide
theorem test_decode_illegal :
    decode 0 = .illegal .opcode ∧ decode 0x103 = .illegal .immediate ∧ decode 0x12 = .illegal .reservedBits := by
  decide
theorem test_decodeTableWord : decodeTableWord 32 0xFF02 = some (.crcByte 0xFF) ∧ decodeTableWord 32 0 = none := by
  decide
theorem test_withFetchWord :
    (after (step (State.reset.withFetchWord 32 0x102))).map (·.acc) = some 0x807E := by decide +kernel

/-! ### The commands -/

/-- V-CRC-1. -/
theorem test_crcInit : (after (exec .crcInit { State.reset with acc := 0x1234 })).map (·.acc) = some 0xFFFF := by decide
/-- V-CRC-13. -/
theorem test_crcByte : (after (exec (.crcByte 0x01) State.reset)).map (·.acc) = some 0x807E := by decide +kernel
/-- V-CRC-6, V-CRC-7. -/
theorem test_crc16 :
    crc16 [0x01, 0x03, 0x00, 0x00, 0x00, 0x0A] = 0xCDC5 ∧
    crc16 [0x31, 0x32, 0x33, 0x34, 0x35, 0x36, 0x37, 0x38, 0x39] = 0x4B37 := by decide +kernel
/-- V-ENC-1. -/
theorem test_frmEncode :
    (after (exec .frmEncode encodeReady)).map (fun t => (t.txBytes 8, t.txflen.toNat, t.acc.toNat)) =
      some ([0x01, 0x03, 0x00, 0x00, 0x00, 0x0A, 0xC5, 0xCD], 8, 0xCDC5) := by decide +kernel
/-- V-ENC-9: TXLEN 254. -/
theorem test_frmEncode_too_long :
    (after (exec .frmEncode { encodeReady with txlen := 254 })).map (fun t => (t.readReg .status, t.acc.toNat)) =
      some (0x15, 0xFFFF) := by decide +kernel
/-- V-VAL-1. -/
theorem test_frmValidate :
    (after (exec .frmValidate validateReady)).map verdict = some (0x00, 5, 0xCDC5CDC5, 0xCDC5) := by decide +kernel
/-- V-VAL-5: the CRC bytes swapped. -/
theorem test_frmValidate_crc_swapped :
    (after (exec .frmValidate ((validateReady.writeRx 6 0xCD).writeRx 7 0xC5))).map verdict =
      some (0x12, 0, 0xC5CDCDC5, 0xCDC5) := by decide +kernel
/-- V-STS-1. -/
theorem test_stsClear :
    (after (exec .stsClear { State.reset with result := .crcMismatch, err := true })).map (·.readReg .status) =
      some 0 := by decide
/-- V-STS-3. -/
theorem test_illegal : (after (executeCommand 0 State.reset)).map (·.readReg .status) = some 0x16 := by decide

/-! ### The bus and reset -/

/-- V-BUS-1 to V-BUS-4. -/
theorem test_bus_errors :
    access (.write32 0x006 5) State.reset = .fault (.busError 0x006 .misaligned) ∧
    access ⟨.bits8, 0b0001, 0x004, .write 5⟩ State.reset = .fault (.busError 0x004 .width) ∧
    access (.read32 0x030) State.reset = .fault (.busError 0x030 .unmapped) ∧
    access (.read32 0xC00) State.reset = .fault (.busError 0xC00 .unmapped) := ⟨rfl, rfl, rfl, rfl⟩
/-- V-BUS-5. -/
theorem test_bus_txlen :
    (after (access (.write32 0x018 0xFFFFFFFF) State.reset)).map (·.readReg .txlen) = some 0x1FF := by decide +kernel
/-- V-BUS-6. -/
theorem test_bus_txbuf :
    (after (access (.write32 0x40C 0x12345678) State.reset)).map (·.readPlace (.txbuf 3)) = some 0x78 := by
  decide +kernel
/-- V-RST-1 to V-RST-3. -/
theorem test_reset :
    State.reset.readReg .ctrl = 1 ∧ State.reset.readReg .status = 0 ∧ State.reset.readReg .crc = 0xFFFF ∧
    State.reset.readReg .crcw = 0xFFFF := by decide

/-! ### Witnesses: the hypotheses of the statements are met -/

theorem witness_OpcodeMapDecidesEveryWord :
    (opcodeRows.map (fun r => r.covers r.bits)) = [true, true, true, true, true] ∧
    ∀ r ∈ opcodeRows, r.covers 0xFFFFFFFF = false := by decide
theorem witness_IllegalWordsOnlyReport : decode 0x00010102 = .illegal .reservedBits := by decide
theorem witness_CrcOfBytesFoldsFromFFFF : State.reset.acc = crc16 [] := by decide
theorem witness_CrcByteFoldsOneByte :
    (0x0000FF02 : Word) &&& 0xFFFF00FF = 0x00000002 ∧ (0x00000012 : Word).extractLsb' 0 4 = 2 ∧
    (0x00000012 : Word).extractLsb' 4 4 ≠ 0 ∧ (0x00010102 : Word).extractLsb' 0 4 = 2 ∧
    (0x00010102 : Word).extractLsb' 16 16 ≠ 0 := by decide
/-- The bytes of a stream with an STS.CLEAR, a read, a TXADDR write and an illegal word in between. -/
def streamSteps : List HostStep :=
  [cmdWrite 0x102, cmdWrite 0x5, .access (.read32 0x00C), .access (.write32 0x014 7), cmdWrite 0x0, cmdWrite 0x302]

theorem witness_StreamingEqualsCrc16 :
    (State.reset.setPending (cmdWrite 1 :: streamSteps)).pending = cmdWrite 0x00000001 :: streamSteps ++ [] ∧
    (∀ h ∈ streamSteps, ∃ a, h = .access a ∧ a.admitted = true) ∧
    streamSteps.filterMap HostStep.commandWord = [0x102, 0x5, 0x0, 0x302] ∧
    ∀ h ∈ streamSteps, ∀ w, h.commandWord = some w →
      decode w ≠ .command .crcInit ∧ decode w ≠ .command .frmEncode ∧ decode w ≠ .command .frmValidate := by
  refine ⟨rfl, ?_, by decide, ?_⟩
  · simp only [streamSteps, List.forall_mem_cons]
    exact ⟨⟨_, rfl, by decide⟩, ⟨_, rfl, by decide⟩, ⟨_, rfl, by decide⟩, ⟨_, rfl, by decide⟩, ⟨_, rfl, by decide⟩,
      ⟨_, rfl, by decide⟩, by simp⟩
  · simp only [streamSteps, List.forall_mem_cons]
    refine ⟨?_, ?_, ?_, ?_, ?_, ?_, by simp⟩ <;> intro w h <;> cases h <;> decide
theorem witness_EncodeAssemblesFrame :
    (1 ≤ encodeReady.txlen.toNat ∧ encodeReady.txlen.toNat ≤ 253) ∧
    ({ encodeReady with txlen := 1 } : State).txlen.toNat = 1 ∧
    ({ encodeReady with txlen := 253 } : State).txlen.toNat = 253 ∧
    State.reset.txlen.toNat < 1 ∧ 253 < ({ encodeReady with txlen := 254 } : State).txlen.toNat := by decide
theorem witness_FrameLengthFollowsTxlen :
    ({ encodeReady with txlen := 9 } : State).txlen = 9 ∧ 1 ≤ encodeReady.txlen.toNat ∧
    encodeReady.txlen.toNat ≤ 253 := by decide
theorem witness_EncodeAndValidateAreIdempotent :
    (after (exec .frmEncode encodeReady)).isSome ∧ (after (exec .frmValidate validateReady)).isSome := by decide +kernel
theorem witness_EncodeReadsOnlyItsInputs :
    ({ encodeReady with acc := 0 } : State).txaddr = encodeReady.txaddr ∧
    ({ encodeReady with acc := 0 } : State).txlen = encodeReady.txlen ∧
    ∀ i, 1 ≤ i → i ≤ encodeReady.txlen.toNat →
      ({ encodeReady with acc := 0 } : State).txByte i = encodeReady.txByte i := ⟨rfl, rfl, fun _ _ _ => rfl⟩
theorem witness_ValidateRunsItsChecksInOrder :
    8 = validateReady.rxlen.toNat ∧
    (0xCDC5 : Half) = crc16 ((List.range (8 - 2)).map validateReady.rxByte) ∧
    (0xCDC5 : Half) = validateReady.rxByte (8 - 1) ++ validateReady.rxByte (8 - 2) := by decide +kernel
theorem witness_ValidateReportsLengthsExactly :
    ({ validateReady with rxlen := 3 } : State).rxlen.toNat < 4 ∧
    256 < ({ validateReady with rxlen := 257 } : State).rxlen.toNat := by decide
/-- V-VAL-6 and V-VAL-10: both CRC-step failures occur. -/
theorem witness_ValidateReportsCrcAndAddressExactly :
    (after (exec .frmValidate { validateReady with rxexp := 0x02 })).map verdict =
      some (0x13, 0, 0xCDC5CDC5, 0xCDC5) ∧
    (after (exec .frmValidate (validateReady.writeRx 6 0xC4))).map verdict =
      some (0x12, 0, 0xCDC4CDC5, 0xCDC5) := by decide +kernel
theorem witness_ValidateOkLeavesThePdu :
    (after (exec .frmValidate validateReady)).map (·.result) = some .ok := by decide +kernel
theorem witness_ValidateReadsOnlyItsInputs :
    ∀ i, i < validateReady.rxlen.toNat → i < 256 →
      ({ validateReady with acc := 0 } : State).rxByte i = validateReady.rxByte i := fun _ _ _ => rfl
/-- P3: the frame of V-ENC-1 stands in both buffers. -/
theorem witness_EncodedFrameValidates :
    1 ≤ encodeReady.txlen.toNat ∧ encodeReady.txlen.toNat ≤ 253 ∧
    (after (exec .frmEncode encodeReady)).map (fun t => (t.txflen, t.txBytes 8)) =
      some (validateReady.rxlen, validateReady.rxBytes 8) ∧ validateReady.rxexp = encodeReady.txaddr := by
  decide +kernel
theorem witness_EverySingleBitFlipIsCaught :
    (after (exec .frmValidate validateReady)).map (·.result) = some .ok ∧ 7 < validateReady.rxlen.toNat := by
  decide +kernel
theorem witness_ResidueTestIsEquivalent :
    (4 ≤ validateReady.rxlen.toNat ∧ validateReady.rxlen.toNat ≤ 256) ∧
    ({ validateReady with rxlen := 4 } : State).rxlen.toNat = 4 ∧
    ({ validateReady with rxlen := 256 } : State).rxlen.toNat = 256 := by decide
theorem witness_EveryCommandReports :
    decode 0x5 = .command .stsClear ∧ decode 0x1 ≠ .command .stsClear ∧
    (after (access (.read32 0x004) State.reset)).isSome ∧ (after (access (.write32 0x000 0) State.reset)).isSome := by
  decide +kernel
/-- A failing command, a read and a successful command. -/
theorem witness_ErrorFlagRemembersAnyFailure :
    (State.reset.setPending [cmdWrite 0x0, .access (.read32 0x008), cmdWrite 0x1]).err = false ∧
    (∀ h ∈ [cmdWrite 0x0, .access (.read32 0x008), cmdWrite 0x1], ∃ a, h = .access a ∧ a.admitted = true) ∧
    ∀ h ∈ [cmdWrite 0x0, .access (.read32 0x008), cmdWrite 0x1], ∀ w, h.commandWord = some w →
      decode w ≠ .command .stsClear := by
  refine ⟨rfl, ?_, ?_⟩
  · simp only [List.forall_mem_cons]
    exact ⟨⟨_, rfl, by decide⟩, ⟨_, rfl, by decide⟩, ⟨_, rfl, by decide⟩, by simp⟩
  · simp only [List.forall_mem_cons]
    refine ⟨?_, ?_, ?_, by simp⟩ <;> intro w h <;> cases h <;> decide
/-- Every row of the failure table occurs; the computed and the carried CRC are those of V-VAL-1 and V-VAL-10. -/
theorem witness_FailuresRecordTheirRow :
    (after (executeCommand 4 State.reset)).map (·.result) = some .frameTooShort ∧
    (after (executeCommand 4 (validateReady.writeRx 6 0xC4))).map (·.result) = some .crcMismatch ∧
    (after (executeCommand 4 { validateReady with rxexp := 2 })).map (·.result) = some .unexpectedSlaveAddress ∧
    (after (executeCommand 4 { validateReady with rxlen := 257 })).map (·.result) = some .frameTooLong ∧
    (after (executeCommand 3 State.reset)).map (·.result) = some .lengthRange ∧
    (after (executeCommand 6 State.reset)).map (·.result) = some .illegalCommand ∧
    (0xCDC5 : Half) = crc16 ((List.range (8 - 2)).map (validateReady.writeRx 6 0xC4).rxByte) ∧
    (0xCDC4 : Half) = (validateReady.writeRx 6 0xC4).rxByte (8 - 1) ++ (validateReady.writeRx 6 0xC4).rxByte (8 - 2) := by
  decide +kernel
theorem witness_SharedAccumulatorHazard :
    decode 0x5 = .command .stsClear ∧ 1 ≤ encodeReady.txlen.toNat ∧ encodeReady.txlen.toNat ≤ 253 ∧
    ({ encodeReady with txlen := 1 } : State).txlen.toNat = 1 ∧
    ({ encodeReady with txlen := 253 } : State).txlen.toNat = 253 ∧
    ({ validateReady with rxlen := 4 } : State).rxlen.toNat = 4 ∧
    ({ validateReady with rxlen := 256 } : State).rxlen.toNat = 256 := by decide
theorem witness_BusChecksAreOrdered :
    (Access.mk .bits16 0b0011 0x004 .read).width ≠ .bits32 ∧ (Access.mk .bits32 0b0111 0x004 .read).lanes ≠ 0b1111 ∧
    (Access.read32 0x006).off.toNat % 4 ≠ 0 ∧ mappedOffset 0x030 = false ∧ mappedOffset 0x3FC = false ∧
    mappedOffset 0xC00 = false ∧ mappedOffset 0xFFC = false ∧ mappedOffset 0x02C = true ∧ mappedOffset 0x400 = true ∧
    mappedOffset 0x7FC = true ∧ mappedOffset 0x800 = true ∧ mappedOffset 0xBFC = true := by decide
theorem witness_HostGoesOnAfterBusError :
    (State.reset.setPending [.access (.read32 0x030)]).pending = [.access (.read32 0x030)] ∧
    (Access.read32 0x030).admitted = false := by decide
theorem witness_ReadsReturnTheMap :
    (Access.read32 0x030).op = .read ∧ (Access.read32 0x030).admitted = false ∧
    (after (access (.read32 (BitVec.ofNat 12 (0x800 + 4 * 7))) validateReady)).map (·.response) =
      some (.readData 0xCD) := by decide +kernel
theorem witness_WritesFollowTheMap :
    (Access.write32 0xC00 7).op = .write 7 ∧ (Access.write32 0xC00 7).admitted = false ∧
    (after (access (.write32 (BitVec.ofNat 12 (0x800 + 4 * 255)) 0x1AB) State.reset)).map (·.rxByte 255) =
      some 0xAB := by decide +kernel
theorem witness_BufferWordHoldsOneByte : (0x800 = 0x400 ∨ 0x800 = 0x800) ∧ 255 < 256 := by decide
theorem witness_ReservedBitsReadZero :
    Reg.ctrl ≠ .cmd ∧ (0xFFFFFFFE : Word) &&& implementedBits .ctrl = 0x00000000 &&& implementedBits .ctrl ∧
    Reg.status ∈ [Reg.status, .crc, .crcw, .txflen, .rxplen, .rxcrc] ∧
    (0x12345678 : Word).extractLsb' 0 8 = (0x00000078 : Word).extractLsb' 0 8 := by decide
theorem witness_ReadsAreFreeAndWritesIdempotent :
    (after (access (.read32 0x008) State.reset)).isSome ∧ (after (access (.write32 0x014 7) State.reset)).isSome ∧
    (Access.write32 0x014 7).off ≠ 0x004 := by decide +kernel
theorem witness_InputWritesCommute :
    mappedOffset (0x014 : Offset).toNat = true ∧ (0x014 : Offset) ≠ 0x004 ∧
    mappedOffset (0x404 : Offset).toNat = true ∧ (0x404 : Offset) ≠ 0x004 ∧ (0x014 : Offset) ≠ 0x404 := by decide
theorem witness_StepRunsDecodedCommand :
    (State.reset.setPending [cmdWrite 0x3]).pending = [cmdWrite 0x3] ∧ decode 0x3 = .command .frmEncode := by decide
theorem witness_StepTakesOneHostStep :
    (after (step (State.reset.setPending [.reset none]))).isSome := by decide +kernel
theorem witness_ResetValues : (after (hostStep (.reset (some 3)) encodeReady)).isSome := by decide +kernel
/-- A FRM.ENCODE beside an unwritten byte of TXBUF, right after the bytes it stores; and a plain write beside it. -/
theorem witness_UnwrittenBytesAreStableDraws :
    (after (step (encodeReady.setPending [cmdWrite 3]))).isSome ∧ (cmdWrite 3).commandWord = some 3 ∧
    decode 3 = .command .frmEncode ∧ encodeReady.mem.lookup (txOffset 8) = none ∧
    (Place.reg .cmd).offset.toNat ≠ txOffset 8 ∧ txOffset 8 ≠ txOffset 0 ∧
    txOffset 8 ≠ txOffset (encodeReady.txlen.toNat + 1) ∧ txOffset 8 ≠ txOffset (encodeReady.txlen.toNat + 2) ∧
    (after (step (encodeReady.setPending [.access (.write32 0x41C 7)]))).isSome ∧
    (HostStep.access (.write32 0x41C 7)).commandWord = none ∧ (0x41C : Offset).toNat ≠ txOffset 8 := by
  decide +kernel
theorem witness_ResetAbandonsTheHeldCommand :
    (State.reset.setPending [.reset (some 3)]).pending = [.reset (some 3)] := by decide
/-- The invariant holds in a state with bytes stored, and that state steps. -/
theorem witness_StepKeepsInvariant :
    (encodeReady.setPending [cmdWrite 3]).Inv ∧ (after (step (encodeReady.setPending [cmdWrite 3]))).isSome :=
  ⟨⟨by decide, by decide, by decide, by decide, by decide, by decide⟩, by decide +kernel⟩
theorem witness_AdmittedSequencesRunToTheEnd :
    ∀ h ∈ [cmdWrite 3, .reset none, .access (.read32 0xBFC)], h.admitted = true := by decide +kernel
theorem witness_AssemblerWritesEncodings : 256 ≤ 256 ∧ 2 ^ 32 ≤ 4294967296 := by decide
theorem witness_CommandsWriteOnlyTheirRow :
    Instr.crcInit ≠ .frmEncode ∧ Instr.frmEncode ≠ .frmValidate ∧ (0x420 : Nat) ≠ txOffset 0 ∧
    (0x420 : Nat) ≠ txOffset (5 + 1) ∧ (0x420 : Nat) ≠ txOffset (5 + 2) := by decide

end Sys2Proof.Tests
end

section
/-! PROOFS. The scope (00_scope.md R6): a step takes the head of the host's sequence, and the operation it performs leaves
the rest of the sequence alone. -/

namespace Sys2Proof.Machine

/-- A write that stores leaves the host's coming steps alone (R42, R43). -/
@[simp] theorem State.writePlace_pending (s : State) (v : Word) (p : Place) :
    (s.writePlace v p).pending = s.pending := by
  obtain ⟨-, -, -, -, -, -, -, -, hpending, -⟩ := s.writePlace_outputs v p
  exact hpending

/-- A word that decodes to a command runs it (R64). -/
theorem executeCommand_of_decode {w : Word} {i : Instr} (hd : decode w = .command i) (s : State) :
    executeCommand w s = exec i s := by
  simp [executeCommand, hd]

/-- Settles O42, by the five things a step can do: each takes the head and keeps the rest. -/
theorem stepTakesOneHostStep : Obligations.StepTakesOneHostStep := by
  intro s t h
  obtain ⟨rest, hread | hstore | hcommand | hillegal | hreset⟩ := step_cases h
  · obtain ⟨a, p, hp, -, -, rfl⟩ := hread
    exact ⟨.access a, by simp [hp]⟩
  · obtain ⟨a, p, v, hp, -, -, -, rfl⟩ := hstore
    exact ⟨.access a, by simp [hp]⟩
  · obtain ⟨a, v, i, hp, -, hd, hexec⟩ := hcommand
    obtain ⟨hpending, -⟩ := executeCommand_own ((executeCommand_of_decode hd _).trans hexec)
    exact ⟨.access a, by simp [hp, hpending]⟩
  · obtain ⟨a, v, why, hp, -, -, rfl⟩ := hillegal
    exact ⟨.access a, by simp [hp]⟩
  · obtain ⟨held, hp, rfl⟩ := hreset
    exact ⟨.reset held, by simp [hp]⟩

end Sys2Proof.Machine
end

section
/-! PROOFS. The invariant of the state (10_state.md R20, R25, R28; 42_validator.md R86): one rule per update of the state,
one per command, and the step. -/

namespace Sys2Proof.Machine

theorem bufferOffset_txOffset {i : Nat} (hi : i < 256) : bufferOffset (txOffset i) = true :=
  decide_eq_true (by simp only [txOffset]; omega)

theorem bufferOffset_rxOffset {i : Nat} (hi : i < 256) : bufferOffset (rxOffset i) = true :=
  decide_eq_true (by simp only [rxOffset]; omega)

namespace State

variable {s : State}

theorem Inv.respond (h : s.Inv) (r : Response) : (s.respond r).Inv := { h with }

theorem Inv.setPending (h : s.Inv) (p : List HostStep) : (s.setPending p).Inv := { h with }

theorem Inv.setAcc (h : s.Inv) (v : Half) : (s.setAcc v).Inv := { h with }

theorem Inv.clearStatus (h : s.Inv) : s.clearStatus.Inv := { h with failureSticks := by simp }

/-- A reported failure is in ERR at once (R20, R92). -/
theorem Inv.report (h : s.Inv) (c : ResultCode) : (s.report c).Inv :=
  { h with failureSticks := fun hc => by simp [(ResultCode.failed_eq_true c).2 hc] }

theorem Inv.setTxflen (h : s.Inv) {v : Len} (hv : v = 0 ∨ (4 ≤ v.toNat ∧ v.toNat ≤ 256)) : (s.setTxflen v).Inv :=
  { h with txflenRange := hv }

/-- An empty PDU asks nothing of RXCRC (R28). -/
theorem Inv.setRxplen_zero (h : s.Inv) : (s.setRxplen 0).Inv :=
  { h with rxplenRange := by simp, rxplenChecked := by simp }

/-- RXPLEN written after RXCRC: a PDU's length needs equal halves (R86). -/
theorem Inv.setRxcrc_setRxplen (h : s.Inv) {computed received : Half} {v : Len} (hv : v.toNat ≤ 253)
    (heq : v ≠ 0 → computed = received) : ((s.setRxcrc computed received).setRxplen v).Inv :=
  { h with rxplenRange := hv, rxplenChecked := heq }

/-- A byte written to a buffer word (R34, R37). -/
theorem Inv.writeByte (h : s.Inv) {a : Nat} (ha : bufferOffset a = true) (b : Byte) : (s.writeByte a b).Inv :=
  { h with
    memWf := Memory.wf_write a b h.memWf
    memMapped := fun c hc => by
      rcases Memory.mem_write hc with rfl | hc
      · exact ha
      · exact h.memMapped c hc }

theorem Inv.writeTx (h : s.Inv) {i : Nat} (hi : i < 256) (b : Byte) : (s.writeTx i b).Inv :=
  h.writeByte (bufferOffset_txOffset hi) b

theorem Inv.writeRx (h : s.Inv) {i : Nat} (hi : i < 256) (b : Byte) : (s.writeRx i b).Inv :=
  h.writeByte (bufferOffset_rxOffset hi) b

/-- The frame of a PDU of at most 253 bytes stays in TXBUF (R77). -/
theorem Inv.putFrame (h : s.Inv) {len : Nat} (hlen : len ≤ 253) (r : Half) : (s.putFrame len r).Inv :=
  ((h.writeTx (by omega) _).writeTx (by omega) _).writeTx (by omega) _

/-- A register write stores an input or nothing (R42, R94), and the invariant speaks of no input. -/
theorem Inv.writeReg (h : s.Inv) (v : Word) (r : Reg) : (s.writeReg v r).Inv := by
  cases r <;> exact { h with }

/-- A store to a mapped place (R42, R43). -/
theorem Inv.writePlace (h : s.Inv) {off : Offset} {p : Place} (hm : mapOffset off = some p) (v : Word) :
    (s.writePlace v p).Inv := by
  rcases mapOffset_cases off with ⟨r, e, -⟩ | ⟨i, hi, e, -⟩ | ⟨i, hi, e, -⟩ | ⟨e, -⟩ <;> cases hm.symm.trans e
  · exact h.writeReg v r
  · exact h.writeTx hi _
  · exact h.writeRx hi _

/-- A reset leaves the invariant whatever it found (R110, R111). -/
theorem inv_resetBlock (s : State) : s.resetBlock.Inv :=
  ⟨Memory.wf_nil, by simp [resetBlock, State.reset], by simp [resetBlock, State.reset],
    .inl rfl, by simp [resetBlock, State.reset], by simp [resetBlock, State.reset]⟩

end State

/-- FRM.ENCODE records no frame, or one of 4 to 256 bytes (R25, R77). -/
theorem execFrmEncode_keeps_inv {s t : State} (h : s.Inv) (he : execFrmEncode s = .next t) : t.Inv := by
  rcases execFrmEncode_cases s with ⟨-, e⟩ | ⟨hlo, hhi, e⟩ <;> cases he.symm.trans e
  · exact (h.setTxflen (.inl rfl)).report _
  · have hpdu : s.txlen.toNat ≤ 253 := hhi
    have hlen : (BitVec.ofNat 9 (s.txlen.toNat + 3)).toNat = s.txlen.toNat + 3 := by
      simp only [BitVec.toNat_ofNat]
      omega
    exact (((h.putFrame hpdu _).setAcc _).setTxflen (.inr (by omega))).report _

/-- FRM.VALIDATE records no PDU, or one of at most 253 bytes after its CRC step found equal halves (R28, R86). -/
theorem execFrmValidate_keeps_inv {s t : State} (h : s.Inv) (he : execFrmValidate s = .next t) : t.Inv := by
  rcases execFrmValidate_cases s with ⟨-, e⟩ | ⟨-, e⟩ | ⟨-, -, -, e⟩ | ⟨-, -, -, -, e⟩ | ⟨hlo, hhi, hcrc, -, e⟩ <;>
    cases he.symm.trans e
  case inl | inr.inl => exact h.setRxplen_zero.report _
  case inr.inr.inl | inr.inr.inr.inl =>
    exact ((h.setAcc _).setRxcrc_setRxplen (by simp) (absurd rfl)).report _
  case inr.inr.inr.inr =>
    have hlen : (BitVec.ofNat 9 (s.rxlen.toNat - 3)).toNat ≤ 253 := by
      simp only [BitVec.toNat_ofNat]
      omega
    exact ((h.setAcc _).setRxcrc_setRxplen hlen fun _ => hcrc).report _

/-- Every command keeps the invariant. -/
theorem exec_keeps_inv {i : Instr} {s t : State} (h : s.Inv) (he : exec i s = .next t) : t.Inv := by
  cases i with
  | crcInit => cases he; exact (h.setAcc _).report _
  | crcByte b => cases he; exact (h.setAcc _).report _
  | frmEncode => exact execFrmEncode_keeps_inv h he
  | frmValidate => exact execFrmValidate_keeps_inv h he
  | stsClear => cases he; exact h.clearStatus

/-- Settles O47, by the five things a step can do. -/
theorem stepKeepsInvariant : Obligations.StepKeepsInvariant := by
  intro s t h hstep
  obtain ⟨rest, hread | hstore | hcommand | hillegal | hreset⟩ := step_cases hstep
  · obtain ⟨a, p, -, -, -, rfl⟩ := hread
    exact (h.setPending rest).respond _
  · obtain ⟨a, p, v, -, hm, -, -, rfl⟩ := hstore
    exact ((h.setPending rest).writePlace hm v).respond _
  · obtain ⟨a, v, i, -, -, -, hexec⟩ := hcommand
    exact exec_keeps_inv ((h.setPending rest).respond _) hexec
  · obtain ⟨a, v, why, -, -, -, rfl⟩ := hillegal
    exact ((h.setPending rest).respond _).report _
  · obtain ⟨held, -, rfl⟩ := hreset
    exact State.inv_resetBlock _

end Sys2Proof.Machine
end

section
/-! PROOFS. The sticky error flag (10_state.md R20): over a sequence of commands it remembers any failure. -/

namespace Sys2Proof.Machine

/-- A report sets ERR on a failure and otherwise keeps it (R20, R92). -/
theorem State.report_err_iff (s : State) (c : ResultCode) :
    (s.report c).err = true ↔ s.err = true ∨ (s.report c).result ≠ .ok := by
  simp [ResultCode.failed_eq_true]

/-- Every command but STS.CLEAR ends in a report, and does not touch ERR before it (R92). -/
theorem exec_ends_in_report {i : Instr} {s t : State} (hi : i ≠ .stsClear) (h : exec i s = .next t) :
    ∃ (u : State) (c : ResultCode), t = u.report c ∧ u.err = s.err := by
  cases i with
  | crcInit => cases h; exact ⟨_, _, rfl, rfl⟩
  | crcByte b => cases h; exact ⟨_, _, rfl, rfl⟩
  | frmEncode =>
    rcases execFrmEncode_cases s with ⟨-, e⟩ | ⟨-, -, e⟩ <;> cases h.symm.trans e <;> exact ⟨_, _, rfl, rfl⟩
  | frmValidate =>
    rcases execFrmValidate_cases s with ⟨-, e⟩ | ⟨-, e⟩ | ⟨-, -, -, e⟩ | ⟨-, -, -, -, e⟩ | ⟨-, -, -, -, e⟩ <;>
      cases h.symm.trans e <;> exact ⟨_, _, rfl, rfl⟩
  | stsClear => exact absurd rfl hi

/-- A command word other than STS.CLEAR, legal or not, sets ERR exactly on a failure (R20). -/
theorem executeCommand_err_iff {w : Word} {s t : State} (hw : decode w ≠ .command .stsClear)
    (h : executeCommand w s = .next t) : t.err = true ↔ s.err = true ∨ t.result ≠ .ok := by
  rcases executeCommand_cases w s with ⟨i, hd, e⟩ | ⟨why, -, e⟩
  · have hi : i ≠ .stsClear := fun hi => hw (hi ▸ hd)
    obtain ⟨u, c, rfl, herr⟩ := exec_ends_in_report hi (e.symm.trans h)
    rw [← herr]
    exact u.report_err_iff c
  · cases h.symm.trans e
    exact s.report_err_iff _

/-- Some command of the sequence, run from `s`, leaves a RESULT that is not OK. -/
def SomeCommandFails (s : State) (seq : List HostStep) : Prop :=
  ∃ (k : Nat) (h : HostStep) (w : Word) (u : State), seq[k]? = some h ∧
    h.commandWord = some w ∧ Host.Core.run Sys2Proof.core (k + 1) s = .next u ∧ u.result ≠ .ok

theorem not_someCommandFails_nil (s : State) : ¬ SomeCommandFails s [] := by
  rintro ⟨k, h, w, u, hk, -⟩
  simp at hk

/-- A failure in a sequence is one of its first command, or one in the rest after the first step. -/
theorem someCommandFails_cons {s t : State} {h : HostStep} {seq : List HostStep} (hstep : step s = .next t) :
    SomeCommandFails s (h :: seq) ↔ (h.commandWord.isSome = true ∧ t.result ≠ .ok) ∨ SomeCommandFails t seq := by
  constructor
  · rintro ⟨k, h', w, u, hk, hw, hrun, hfail⟩
    rw [run_succ k hstep] at hrun
    cases k with
    | zero =>
      cases hk
      cases hrun
      exact .inl ⟨by simp [hw], hfail⟩
    | succ k => exact .inr ⟨k, h', w, u, hk, hw, hrun, hfail⟩
  · rintro (⟨hsome, hfail⟩ | ⟨k, h', w, u, hk, hw, hrun, hfail⟩)
    · obtain ⟨w, hw⟩ := Option.isSome_iff_exists.1 hsome
      exact ⟨0, h, w, t, rfl, hw, run_one hstep, hfail⟩
    · exact ⟨k + 1, h', w, u, hk, hw, (run_succ _ hstep).trans hrun, hfail⟩

/-- An admitted access that writes no STS.CLEAR sets ERR exactly when it is a command that fails. -/
theorem step_admitted_err_iff {s : State} {a : Access} {rest : List HostStep} (hp : s.pending = .access a :: rest)
    (ha : a.admitted = true)
    (hw : ∀ w, (HostStep.access a).commandWord = some w → decode w ≠ .command .stsClear) :
    ∃ t, step s = .next t ∧ t.pending = rest ∧
      (t.err = true ↔ s.err = true ∨ ((HostStep.access a).commandWord.isSome = true ∧ t.result ≠ .ok)) := by
  rcases step_admitted hp ha with ⟨w, hcmd, hstep⟩ | ⟨hnone, t, hstep, hpending, -, herr, -⟩
  · obtain ⟨t, ht⟩ := executeCommand_next w ((s.setPending rest).respond .writeDone)
    obtain ⟨hpending, -⟩ := executeCommand_own ht
    exact ⟨t, hstep.trans ht, hpending, by simpa [hcmd] using executeCommand_err_iff (hw w hcmd) ht⟩
  · exact ⟨t, hstep, hpending, by simp [hnone, herr]⟩

/-- From any ERR: a sequence of admitted accesses without STS.CLEAR runs to its end, and ERR is then set exactly when it
was set before or some command failed (R20). -/
theorem run_admitted_err_iff (seq : List HostStep) {rest : List HostStep} {s : State} (hp : s.pending = seq ++ rest)
    (hadm : ∀ h ∈ seq, ∃ a, h = .access a ∧ a.admitted = true)
    (hcmd : ∀ h ∈ seq, ∀ w, h.commandWord = some w → decode w ≠ .command .stsClear) :
    ∃ t, Host.Core.run Sys2Proof.core seq.length s = .next t ∧ t.pending = rest ∧
      (t.err = true ↔ s.err = true ∨ SomeCommandFails s seq) := by
  induction seq generalizing s with
  | nil => exact ⟨s, rfl, hp, by simp [not_someCommandFails_nil]⟩
  | cons h seq ih =>
    obtain ⟨⟨a, rfl, ha⟩, hadmRest⟩ := List.forall_mem_cons.1 hadm
    obtain ⟨hw, hcmdRest⟩ := List.forall_mem_cons.1 hcmd
    obtain ⟨u, hstep, hu, herr⟩ := step_admitted_err_iff hp ha hw
    obtain ⟨t, hrun, ht, hend⟩ := ih hu hadmRest hcmdRest
    exact ⟨t, (run_succ _ hstep).trans hrun, ht, by rw [hend, herr, someCommandFails_cons hstep, or_assoc]⟩

/-- Settles O28, by induction on the sequence from any value of ERR. -/
theorem errorFlagRemembersAnyFailure : Obligations.ErrorFlagRemembersAnyFailure := by
  intro s seq rest herr hp hadm hcmd
  obtain ⟨t, hrun, ht, hend⟩ := run_admitted_err_iff seq hp hadm hcmd
  exact ⟨t, hrun, ht, hend.trans (by simp [herr, SomeCommandFails])⟩

end Sys2Proof.Machine
end

section
/-! PROOFS. STATUS.RESULT (10_state.md R19) and the reserved bits and read-only registers of the window (R15). -/

namespace Sys2Proof.Machine

/-- The result codes in the order of R19. -/
def resultCodes : List ResultCode :=
  [.ok, .frameTooShort, .crcMismatch, .unexpectedSlaveAddress, .frameTooLong, .lengthRange, .illegalCommand]

/-- A code's number is its place in the list, so the number gives the code back. -/
theorem resultCodes_getElem_code (c : ResultCode) : resultCodes[c.code.toNat]? = some c := by cases c <;> rfl

theorem ResultCode.code_injective : Function.Injective ResultCode.code := fun c d h =>
  Option.some.inj (by rw [← resultCodes_getElem_code c, h, resultCodes_getElem_code])

/-- Settles O26: the numbers by evaluation, their distinctness by the inverse `resultCodes`. -/
theorem resultCodesAreDistinct : Obligations.ResultCodesAreDistinct :=
  ⟨rfl, rfl, rfl, rfl, rfl, rfl, rfl, fun _ _ h => ResultCode.code_injective h⟩

/- Reserved bits -/

/-- A field of `n` bits, extended to a word, lies within a mask that has the low `n` bits (R15, R41). -/
theorem setWidth_and_not_mask {n : Nat} (x : BitVec n) (m : Word) (hm : ∀ i < n, m.getLsbD i = true) :
    x.setWidth 32 &&& ~~~m = 0 := by
  ext i hi
  by_cases h : i < n
  · simp [← BitVec.getLsbD_eq_getElem, hm i h]
  · simp [BitVec.getLsbD_of_ge x i (by omega)]

/-- A register reads 0 outside its implemented bits (R15). -/
theorem State.readReg_reserved (s : State) (r : Reg) : s.readReg r &&& ~~~implementedBits r = 0 := by
  cases r with
  | cmd => exact BitVec.zero_and
  | rxcrc => simp [implementedBits]
  | ctrl | status | crc | crcw | txaddr | txlen | txflen | rxlen | rxexp | rxplen =>
    exact setWidth_and_not_mask _ _ (by decide)

/-- Two words that agree within a mask agree on its bits. -/
theorem getLsbD_eq_of_and_eq {v v' m : Word} (h : v &&& m = v' &&& m) {i : Nat} (hi : m.getLsbD i = true) :
    v.getLsbD i = v'.getLsbD i := by
  simpa [hi] using congrArg (·.getLsbD i) h

/-- Two words that agree within a mask with the low `n` bits have the same low field. -/
theorem extractLsb'_eq_of_and_eq {v v' m : Word} (h : v &&& m = v' &&& m) {n : Nat}
    (hm : ∀ i < n, m.getLsbD i = true) : v.extractLsb' 0 n = v'.extractLsb' 0 n := by
  ext i hi
  simpa using getLsbD_eq_of_and_eq h (hm i hi)

/-- A register write depends on the implemented bits alone (R15, R42). -/
theorem State.writeReg_congr (s : State) {r : Reg} {v v' : Word}
    (h : v &&& implementedBits r = v' &&& implementedBits r) : s.writeReg v r = s.writeReg v' r := by
  cases r with
  | cmd | status | crc | crcw | txflen | rxplen | rxcrc => rfl
  | ctrl => exact congrArg s.setAchk (getLsbD_eq_of_and_eq h (by decide))
  | txaddr => exact congrArg s.setTxaddr (extractLsb'_eq_of_and_eq h (by decide))
  | txlen => exact congrArg s.setTxlen (extractLsb'_eq_of_and_eq h (by decide))
  | rxlen => exact congrArg s.setRxlen (extractLsb'_eq_of_and_eq h (by decide))
  | rxexp => exact congrArg s.setRxexp (extractLsb'_eq_of_and_eq h (by decide))

/- Accesses to registers and buffer words -/

/-- A write to a place other than CMD stores and completes (R42). -/
theorem memWrite_of_ne_cmd {p : Place} (hp : p ≠ .reg .cmd) (v : Word) (s : State) :
    memWrite p v s = .next ((s.writePlace v p).respond .writeDone) := by
  rcases memWrite_cases p v s with ⟨rfl, -⟩ | ⟨-, e⟩
  · exact absurd rfl hp
  · exact e

/-- A write to a register other than CMD (R42). -/
theorem access_write_reg {r : Reg} (hr : r ≠ .cmd) (v : Word) (s : State) :
    access (.write32 (BitVec.ofNat 12 (regOffset r)) v) s = .next ((s.writeReg v r).respond .writeDone) :=
  (access_write32 (by cases r <;> decide) (mapOffset_reg r) v s).trans (memWrite_of_ne_cmd (by simpa using hr) v s)

/-- The buffer word at an index of either buffer is its byte's place, and aligned (R37, R43). -/
theorem bufferWord_place {base i : Nat} (hb : base = 0x400 ∨ base = 0x800) (hi : i < 256) :
    (BitVec.ofNat 12 (base + 4 * i)).toNat % 4 = 0 ∧
    (mapOffset (BitVec.ofNat 12 (base + 4 * i)) = some (.txbuf i) ∨
      mapOffset (BitVec.ofNat 12 (base + 4 * i)) = some (.rxbuf i)) := by
  refine ⟨by rw [toNat_bufferOffset (by omega) hi]; omega, ?_⟩
  rcases hb with rfl | rfl
  · exact .inl (mapOffset_txbuf hi)
  · exact .inr (mapOffset_rxbuf hi)

/-- A buffer word reads as a byte, zero-extended (R43). -/
theorem access_read_bufferWord {base i : Nat} (hb : base = 0x400 ∨ base = 0x800) (hi : i < 256) (s : State) :
    ∃ b : Byte, access (.read32 (BitVec.ofNat 12 (base + 4 * i))) s = .next (s.respond (.readData (b.setWidth 32))) := by
  obtain ⟨ha, hm | hm⟩ := bufferWord_place hb hi
  · exact ⟨s.txByte i, access_read32 ha hm s⟩
  · exact ⟨s.rxByte i, access_read32 ha hm s⟩

/-- A write to a buffer word depends on its low byte alone (R43). -/
theorem access_write_bufferWord_congr {base i : Nat} (hb : base = 0x400 ∨ base = 0x800) (hi : i < 256) (s : State)
    {v v' : Word} (h : v.extractLsb' 0 8 = v'.extractLsb' 0 8) :
    access (.write32 (BitVec.ofNat 12 (base + 4 * i)) v) s =
      access (.write32 (BitVec.ofNat 12 (base + 4 * i)) v') s := by
  obtain ⟨ha, hm | hm⟩ := bufferWord_place hb hi <;>
    simp [access_write32 ha hm, memWrite, State.writePlace, h]

/-- A read-only register is not CMD and ignores every write (R15). -/
theorem readOnly_ignores_write {r : Reg} (hr : r ∈ [Reg.status, .crc, .crcw, .txflen, .rxplen, .rxcrc]) :
    r ≠ .cmd ∧ ∀ (s : State) (v : Word), s.writeReg v r = s := by
  simp only [List.mem_cons, List.not_mem_nil, or_false] at hr
  rcases hr with rfl | rfl | rfl | rfl | rfl | rfl <;> exact ⟨by decide, fun _ _ => rfl⟩

/-- Settles O38, from what each register reads and keeps and where each buffer word stands. -/
theorem reservedBitsReadZero : Obligations.ReservedBitsReadZero := by
  refine ⟨State.readReg_reserved, ?_, ?_, ?_⟩
  · intro s r v v' hr h
    rw [access_write_reg hr, access_write_reg hr, s.writeReg_congr h]
  · exact fun s base i hb hi => ⟨access_read_bufferWord hb hi s, fun _ _ => access_write_bufferWord_congr hb hi s⟩
  · intro s v r hr
    obtain ⟨hne, hkeep⟩ := readOnly_ignores_write hr
    rw [access_write_reg hne, hkeep]
    rfl

end Sys2Proof.Machine
end

section
/-! PROOFS. The host bus (20_memory.md R38 to R45): when an access completes, and what a read, a write and a CMD write
do at every place of the window. -/

namespace Sys2Proof.Machine

/- Admitted accesses -/

/-- The accesses the window admits, by their checks (R38 to R40). -/
theorem Access.admitted_iff_place (a : Access) :
    a.admitted = true ↔ a.fullWidth = true ∧ a.aligned = true ∧ ∃ p, mapOffset a.off = some p := by
  simp only [Access.admitted, Bool.and_eq_true, mappedOffset_iff, Access.aligned_iff]

/-- The accesses the window refuses, as numbers (R38 to R40). -/
theorem Access.admitted_eq_false_iff (a : Access) :
    a.admitted = false ↔ a.width ≠ .bits32 ∨ a.lanes ≠ 0b1111 ∨ a.off.toNat % 4 ≠ 0 ∨
      (0x02C < a.off.toNat ∧ a.off.toNat < 0x400) ∨ 0xC00 ≤ a.off.toNat := by
  have hwidth : a.fullWidth = true ↔ a.width = .bits32 ∧ a.lanes = 0b1111 := by simp [Access.fullWidth]
  have hmapped : mappedOffset a.off.toNat = true ↔ a.off.toNat % 4 = 0 ∧
      ¬ (0x02C < a.off.toNat ∧ a.off.toNat < 0x400) ∧ ¬ 0xC00 ≤ a.off.toNat := by
    simp only [mappedOffset, decide_eq_true_eq]
    omega
  rw [← Bool.not_eq_true, Access.admitted, Bool.and_eq_true, hwidth, hmapped]
  tauto

/-- Exactly the admitted accesses complete; the others get a bus error (R95, R96). -/
theorem access_outcome (a : Access) (s : State) :
    (a.admitted = true ∧ ∃ t, access a s = .next t) ∨
    (a.admitted = false ∧ ∃ c, access a s = .fault (.busError a.off c)) := by
  rw [← Bool.not_eq_true, Access.admitted_iff_place]
  rcases access_cases a s with ⟨hw, e⟩ | ⟨-, ha, e⟩ | ⟨-, -, hm, e⟩ | ⟨p, hw, ha, hm, ⟨-, e⟩ | ⟨v, -, e⟩⟩
  · exact .inr ⟨by simp [hw], _, e⟩
  · exact .inr ⟨by simp [ha], _, e⟩
  · exact .inr ⟨by simp [hm], _, e⟩
  · exact .inl ⟨⟨hw, ha, p, hm⟩, _, e⟩
  · refine .inl ⟨⟨hw, ha, p, hm⟩, ?_⟩
    rcases memWrite_cases p v s with ⟨-, e'⟩ | ⟨-, e'⟩
    · obtain ⟨t, ht⟩ := executeCommand_next v (s.respond .writeDone)
      exact ⟨t, (e.trans e').trans ht⟩
    · exact ⟨_, e.trans e'⟩

theorem access_busError_iff (a : Access) (s : State) :
    (∃ c, access a s = .fault (.busError a.off c)) ↔ a.admitted = false := by
  rcases access_outcome a s with ⟨hadm, t, e⟩ | ⟨hadm, hfault⟩
  · simp [hadm, e]
  · exact iff_of_true hfault hadm

theorem admitted_of_access_next {a : Access} {s t : State} (h : access a s = .next t) : a.admitted = true := by
  rcases access_outcome a s with ⟨hadm, -⟩ | ⟨-, c, e⟩
  · exact hadm
  · cases h.symm.trans e

/-- Settles O32: the refused accesses as numbers, and the two outcomes of an access. -/
theorem busErrorsExactly : Obligations.BusErrorsExactly := by
  intro a s
  refine ⟨(access_busError_iff a s).trans a.admitted_eq_false_iff, ?_, rfl⟩
  rcases access_outcome a s with ⟨-, hnext⟩ | ⟨-, hfault⟩
  · exact .inl hnext
  · exact .inr hfault

/- Reads -/

/-- A read of a register returns its value (R41). -/
theorem access_read_reg (r : Reg) (s : State) :
    access (.read32 (BitVec.ofNat 12 (regOffset r))) s = .next (s.respond (.readData (s.readReg r))) :=
  access_read32 (by cases r <;> decide) (mapOffset_reg r) s

/-- A read of a buffer word of either buffer returns the byte it holds (R41, R43). -/
theorem access_read_bufferWord_byteAt {base i : Nat} (hb : base = 0x400 ∨ base = 0x800) (hi : i < 256) (s : State) :
    access (.read32 (BitVec.ofNat 12 (base + 4 * i))) s =
      .next (s.respond (.readData ((s.byteAt (base + 4 * i)).setWidth 32))) := by
  obtain ⟨ha, -⟩ := bufferWord_place hb hi
  rcases hb with rfl | rfl
  · exact access_read32 ha (mapOffset_txbuf hi) s
  · exact access_read32 ha (mapOffset_rxbuf hi) s

/-- CTRL reads ACHK in bit 0 (R16, R41). -/
theorem State.readReg_ctrl (s : State) : s.readReg .ctrl = if s.achk = true then 1 else 0 := by
  cases h : s.achk <;> simp [State.readReg, h]

/-- Settles O35, register by register and buffer by buffer. -/
theorem readsReturnTheMap : Obligations.ReadsReturnTheMap := by
  intro s
  refine ⟨?_, access_read_reg .cmd s, access_read_reg .status s, access_read_reg .crc s, access_read_reg .crcw s,
    access_read_reg .txaddr s, access_read_reg .txlen s, access_read_reg .txflen s, access_read_reg .rxlen s,
    access_read_reg .rxexp s, access_read_reg .rxplen s, access_read_reg .rxcrc s, ?_, ?_, ?_⟩
  · rw [← s.readReg_ctrl]
    exact access_read_reg .ctrl s
  · exact fun i hi => access_read_bufferWord_byteAt (.inl rfl) hi s
  · exact fun i hi => access_read_bufferWord_byteAt (.inr rfl) hi s
  · exact fun a _ hadm => (access_busError_iff a s).2 hadm

/- Writes -/

/-- A write to a buffer word of either buffer stores the low byte there (R42, R43). -/
theorem access_write_bufferWord {base i : Nat} (hb : base = 0x400 ∨ base = 0x800) (hi : i < 256) (v : Word)
    (s : State) : access (.write32 (BitVec.ofNat 12 (base + 4 * i)) v) s =
      .next ((s.writeByte (base + 4 * i) (v.extractLsb' 0 8)).respond .writeDone) := by
  obtain ⟨ha, -⟩ := bufferWord_place hb hi
  rcases hb with rfl | rfl
  · exact access_write32 ha (mapOffset_txbuf hi) v s
  · exact access_write32 ha (mapOffset_rxbuf hi) v s

/-- A write to a read-only register only completes (R15, R42). -/
theorem access_write_readOnly {r : Reg} (hr : r ∈ [Reg.status, .crc, .crcw, .txflen, .rxplen, .rxcrc]) (v : Word)
    (s : State) : access (.write32 (BitVec.ofNat 12 (regOffset r)) v) s = .next (s.respond .writeDone) := by
  obtain ⟨hne, hkeep⟩ := readOnly_ignores_write hr
  rw [access_write_reg hne, hkeep]

/-- Settles O36, register by register; a buffer word by a read after a write of the buffers. -/
theorem writesFollowTheMap : Obligations.WritesFollowTheMap := by
  intro s v
  refine ⟨access_write_reg (r := .ctrl) (by decide) v s, access_cmd v s, ?_,
    access_write_reg (r := .txaddr) (by decide) v s, access_write_reg (r := .txlen) (by decide) v s,
    access_write_reg (r := .rxlen) (by decide) v s, access_write_reg (r := .rxexp) (by decide) v s, ?_, ?_⟩
  · intro off hoff
    have hreg : off ∈ [Reg.status, .crc, .crcw, .txflen, .rxplen, .rxcrc].map (BitVec.ofNat 12 ∘ regOffset) := hoff
    obtain ⟨r, hr, rfl⟩ := List.mem_map.1 hreg
    exact access_write_readOnly hr v s
  · exact fun base i hb hi => ⟨_, access_write_bufferWord hb hi v s, s.byteAt_writeByte_same _ _,
      fun a ha => s.byteAt_writeByte_other _ ha⟩
  · exact fun a _ hadm => (access_busError_iff a s).2 hadm

/-- Settles O37, by a read after a write of the buffers. -/
theorem bufferWordHoldsOneByte : Obligations.BufferWordHoldsOneByte := by
  intro s v base i hb hi
  have hkeep (a : Nat) (hne : base + 4 * i ≠ a) := s.byteAt_writeByte_other (v.extractLsb' 0 8) hne.symm
  exact ⟨_, access_write_bufferWord hb hi v s, ⟨_, access_read_bufferWord_byteAt hb hi _, by simp⟩,
    fun j _ => hkeep (0x400 + 4 * j), fun j _ => hkeep (0x800 + 4 * j)⟩

/- Repeated accesses -/

/-- The bus response is no part of what a place reads as (R41). -/
theorem State.readPlace_respond (s : State) (r : Response) (p : Place) :
    (s.respond r).readPlace p = s.readPlace p := rfl

theorem State.respond_respond (s : State) (r r' : Response) : (s.respond r).respond r' = s.respond r' := rfl

/-- A write that stores neither reads nor writes the bus response. -/
theorem State.writePlace_respond (s : State) (r : Response) (v : Word) (p : Place) :
    (s.respond r).writePlace v p = (s.writePlace v p).respond r := by
  rcases p with reg | i | i
  · cases reg <;> rfl
  · rfl
  · rfl

theorem State.writeByte_writeByte_same (s : State) (a : Nat) (b b' : Byte) :
    (s.writeByte a b).writeByte a b' = s.writeByte a b' := by
  simp [State.writeByte, Memory.write_write_same]

/-- A write that stores, done twice, is done once (R45). -/
theorem State.writePlace_writePlace (s : State) (v : Word) (p : Place) :
    (s.writePlace v p).writePlace v p = s.writePlace v p := by
  rcases p with reg | i | i
  · cases reg <;> rfl
  · exact s.writeByte_writeByte_same _ _ _
  · exact s.writeByte_writeByte_same _ _ _

/-- An admitted access is a 32-bit access on all lanes to a place of the window. -/
theorem Access.eq_of_admitted {a : Access} (h : a.admitted = true) :
    a = ⟨.bits32, 0b1111, a.off, a.op⟩ ∧ a.off.toNat % 4 = 0 ∧ ∃ p, mapOffset a.off = some p := by
  obtain ⟨hw, ha, hplace⟩ := a.admitted_iff_place.1 h
  refine ⟨?_, a.aligned_iff.1 ha, hplace⟩
  obtain ⟨width, lanes, off, op⟩ := a
  simpa [Access.fullWidth] using hw

/-- A read that completes in one state reads its place in every state. -/
theorem access_read_of_next {a : Access} {s t : State} (ho : a.op = .read) (h : access a s = .next t) :
    ∃ p, ∀ u, access a u = .next (u.respond (.readData (u.readPlace p))) := by
  obtain ⟨ha, haligned, p, hm⟩ := Access.eq_of_admitted (admitted_of_access_next h)
  refine ⟨p, fun u => ?_⟩
  rw [ha, ho]
  exact access_read32 haligned hm u

/-- A write to another offset than CMD's that completes in one state stores to its place in every state. -/
theorem access_store_of_next {a : Access} {v : Word} {s t : State} (ho : a.op = .write v) (hoff : a.off ≠ 0x004)
    (h : access a s = .next t) : ∃ p, ∀ u, access a u = .next ((u.writePlace v p).respond .writeDone) := by
  obtain ⟨ha, haligned, p, hm⟩ := Access.eq_of_admitted (admitted_of_access_next h)
  have hp : p ≠ .reg .cmd := fun hp => hoff (mapOffset_cmd (hp ▸ hm))
  refine ⟨p, fun u => ?_⟩
  rw [ha, ho]
  exact (access_write32 haligned hm v u).trans (memWrite_of_ne_cmd hp v u)

/-- Settles O39: a read does only the response, and a store absorbs its repetition. -/
theorem readsAreFreeAndWritesIdempotent : Obligations.ReadsAreFreeAndWritesIdempotent := by
  constructor
  · intro a s t ho h
    obtain ⟨p, hread⟩ := access_read_of_next ho h
    cases (hread s).symm.trans h
    exact ⟨rfl, rfl, by rw [hread, State.readPlace_respond, State.respond_respond]⟩
  · intro a v s t ho hoff h
    obtain ⟨p, hstore⟩ := access_store_of_next ho hoff h
    cases (hstore s).symm.trans h
    rw [hstore, State.writePlace_respond, State.writePlace_writePlace, State.respond_respond]

/- The command a step runs -/

/-- Settles O41: a CMD write that is next runs its word, and the word decodes to the command. -/
theorem stepRunsDecodedCommand : Obligations.StepRunsDecodedCommand := by
  intro s w i rest hp hd
  rw [step_cmdWrite hp]
  exact executeCommand_of_decode hd _

end Sys2Proof.Machine
end

section
/-! PROOFS. The command word (30_encoding.md R63 to R67): a word is its four fields, the fields of an encoding, and the
decoder as the inverse of the encoder. -/

namespace Sys2Proof

/- The fields of a word -/

/-- A word is its four fields, side by side (R63). -/
theorem append_fields (w : Word) : wordRsv1 w ++ (wordImm8 w ++ (wordRsv0 w ++ wordOp w)) = w := by
  have hlow8 : wordRsv0 w ++ wordOp w = w.extractLsb' 0 8 :=
    BitVec.extractLsb'_append_extractLsb'_eq_extractLsb' rfl
  have hlow16 : wordImm8 w ++ w.extractLsb' 0 8 = w.extractLsb' 0 16 :=
    BitVec.extractLsb'_append_extractLsb'_eq_extractLsb' rfl
  have hword : wordRsv1 w ++ w.extractLsb' 0 16 = w.extractLsb' 0 32 :=
    BitVec.extractLsb'_append_extractLsb'_eq_extractLsb' rfl
  rw [hlow8, hlow16, hword, BitVec.extractLsb'_eq_self]

theorem word_ext {v w : Word} (hop : wordOp v = wordOp w) (hrsv0 : wordRsv0 v = wordRsv0 w)
    (himm8 : wordImm8 v = wordImm8 w) (hrsv1 : wordRsv1 v = wordRsv1 w) : v = w := by
  rw [← append_fields v, ← append_fields w, hop, hrsv0, himm8, hrsv1]

/-- The row of CRC.BYTE (R65) fixes every field but IMM8. -/
theorem and_crcByteMask_eq_iff (w : Word) :
    w &&& 0xFFFF00FF#32 = 0x00000002#32 ↔ wordOp w = 2 ∧ wordRsv0 w = 0 ∧ wordRsv1 w = 0 := by
  have hop : wordOp (w &&& 0xFFFF00FF#32) = wordOp w := BitVec.extractLsb'_and.trans BitVec.and_allOnes
  have hrsv0 : wordRsv0 (w &&& 0xFFFF00FF#32) = wordRsv0 w := BitVec.extractLsb'_and.trans BitVec.and_allOnes
  have himm8 : wordImm8 (w &&& 0xFFFF00FF#32) = 0 := BitVec.extractLsb'_and.trans BitVec.and_zero
  have hrsv1 : wordRsv1 (w &&& 0xFFFF00FF#32) = wordRsv1 w := BitVec.extractLsb'_and.trans BitVec.and_allOnes
  constructor
  · intro h
    rw [← hop, ← hrsv0, ← hrsv1, h]
    decide
  · rintro ⟨h2, h0, h1⟩
    exact word_ext (hop.trans h2) (hrsv0.trans h0) himm8 (hrsv1.trans h1)

/- The fields of an encoding -/

/-- OP of a command (R65). -/
def Instr.opcode : Instr → BitVec 4
  | .crcInit => 1
  | .crcByte _ => 2
  | .frmEncode => 3
  | .frmValidate => 4
  | .stsClear => 5

/-- IMM8 of a command, 0 where it has no operand (R63, R66). -/
def Instr.operand : Instr → Byte
  | .crcByte imm8 => imm8
  | .crcInit | .frmEncode | .frmValidate | .stsClear => 0

/-- The word of CRC.BYTE, field by field (R63). -/
theorem encode_crcByte (b : Byte) : encode (.crcByte b) = 0#16 ++ b ++ 0x02#8 := by
  have h := BitVec.setWidth_append_append_eq_shiftLeft_setWidth_or (b := 0#16) (b' := b) (b'' := 0x02#8) (w''' := 32)
  rw [BitVec.setWidth_eq] at h
  rw [h, BitVec.or_comm]
  simp [encode]

@[simp] theorem wordOp_encode (i : Instr) : wordOp (encode i) = i.opcode := by
  cases i with
  | crcByte b =>
    rw [encode_crcByte, wordOp, BitVec.extractLsb'_append_eq_of_add_le (by decide)]
    rfl
  | crcInit | frmEncode | frmValidate | stsClear => rfl

@[simp] theorem wordImm8_encode (i : Instr) : wordImm8 (encode i) = i.operand := by
  cases i with
  | crcByte b =>
    rw [encode_crcByte, wordImm8, BitVec.extractLsb'_append_eq_of_le (by decide)]
    exact BitVec.extractLsb'_append_eq_right
  | crcInit | frmEncode | frmValidate | stsClear => rfl

/-- No encoding sets a reserved bit (R67). -/
theorem reserved_encode (i : Instr) : wordRsv0 (encode i) = 0 ∧ wordRsv1 (encode i) = 0 := by
  have h : Laws.Fields.Statement i := by
    cases i with
    | crcInit => exact Laws.Fields.crcInit
    | crcByte b => exact Laws.Fields.crcByte b
    | frmEncode => exact Laws.Fields.frmEncode
    | frmValidate => exact Laws.Fields.frmValidate
    | stsClear => exact Laws.Fields.stsClear
  obtain ⟨hrsv0, hrsv1, -⟩ := h
  exact ⟨hrsv0, hrsv1⟩

/-- A word encodes a command exactly when it has its opcode and its operand and no reserved bit (R63, R65). -/
theorem encode_eq_iff (i : Instr) (w : Word) :
    encode i = w ↔ wordOp w = i.opcode ∧ wordImm8 w = i.operand ∧ wordRsv0 w = 0 ∧ wordRsv1 w = 0 := by
  obtain ⟨hrsv0, hrsv1⟩ := reserved_encode i
  constructor
  · rintro rfl
    exact ⟨wordOp_encode i, wordImm8_encode i, hrsv0, hrsv1⟩
  · rintro ⟨hop, himm8, h0, h1⟩
    exact word_ext (by rw [wordOp_encode, hop]) (by rw [hrsv0, h0]) (by rw [wordImm8_encode, himm8])
      (by rw [hrsv1, h1])

/-- The row of CRC.BYTE (R65) holds the encodings of CRC.BYTE. -/
theorem and_crcByteMask_eq_iff_encode (w : Word) :
    w &&& 0xFFFF00FF#32 = 0x00000002#32 ↔ encode (.crcByte (wordImm8 w)) = w := by
  rw [and_crcByteMask_eq_iff, encode_eq_iff]
  simp [Instr.opcode, Instr.operand]

/- The decoder -/

theorem decode_encode (i : Instr) : decode (encode i) = .command i := by
  cases i with
  | crcByte b =>
    have hop : wordOp (encode (.crcByte b)) = 2 := wordOp_encode _
    have hne : encode (.crcByte b) ≠ 0x00000001#32 := fun h => by
      rw [h] at hop
      exact absurd hop (by decide)
    have hrow : encode (.crcByte b) &&& 0xFFFF00FF#32 = 0x00000002#32 :=
      (and_crcByteMask_eq_iff _).2 ⟨hop, reserved_encode _⟩
    rw [decode, if_neg hne, if_pos hrow, wordImm8_encode, Instr.operand]
  | crcInit | frmEncode | frmValidate | stsClear => rfl

theorem encode_of_decode {w : Word} {i : Instr} (h : decode w = .command i) : encode i = w := by
  unfold decode at h
  split_ifs at h with hinit hbyte hencode hvalidate hclear <;> cases h
  · exact hinit.symm
  · exact (and_crcByteMask_eq_iff_encode w).1 hbyte
  · exact hencode.symm
  · exact hvalidate.symm
  · exact hclear.symm

theorem decode_eq_command_iff (w : Word) (i : Instr) : decode w = .command i ↔ encode i = w :=
  ⟨encode_of_decode, fun h => h ▸ decode_encode i⟩

/-- The illegal words are those that encode no command (R64, R67). -/
theorem decode_illegal_iff (w : Word) : (∃ why, decode w = .illegal why) ↔ ¬ ∃ i, encode i = w := by
  simp only [← decode_eq_command_iff]
  cases decode w with
  | command i => simp
  | illegal why => simp

/-- Settles O2, from `decode_encode` and `encode_of_decode`. -/
theorem decodeEncodeAgree : Obligations.DecodeEncodeAgree := decode_eq_command_iff

/- The opcode map -/

/-- A word in a row of the map encodes a command of the row's name (R65). -/
theorem exists_encode_of_covers {r : OpcodeRow} {w : Word} (hr : r ∈ opcodeRows) (hw : r.covers w = true) :
    ∃ i, encode i = w ∧ i.mnemonic = r.mnemonic := by
  have hmatch : w &&& r.mask = r.bits := beq_iff_eq.1 hw
  simp only [opcodeRows, List.mem_cons, List.not_mem_nil, or_false] at hr
  rcases hr with rfl | rfl | rfl | rfl | rfl
  · exact ⟨.crcInit, hmatch.symm.trans BitVec.and_allOnes, rfl⟩
  · exact ⟨.crcByte (wordImm8 w), (and_crcByteMask_eq_iff_encode w).1 hmatch, rfl⟩
  · exact ⟨.frmEncode, hmatch.symm.trans BitVec.and_allOnes, rfl⟩
  · exact ⟨.frmValidate, hmatch.symm.trans BitVec.and_allOnes, rfl⟩
  · exact ⟨.stsClear, hmatch.symm.trans BitVec.and_allOnes, rfl⟩

/-- Every encoding is in a row of the map (R65). -/
theorem exists_row_covers_encode (i : Instr) : ∃ r ∈ opcodeRows, r.covers (encode i) = true := by
  cases i with
  | crcByte b =>
    exact ⟨opcodeRows[1], List.getElem_mem _,
      beq_iff_eq.2 ((and_crcByteMask_eq_iff _).2 ⟨wordOp_encode _, reserved_encode _⟩)⟩
  | crcInit | frmEncode | frmValidate | stsClear => decide

/-- Settles O3: a row's words are encodings of its command, and every encoding is in a row. -/
theorem opcodeMapDecidesEveryWord : Obligations.OpcodeMapDecidesEveryWord := by
  intro w
  constructor
  · intro r hr hw
    obtain ⟨i, hi, hname⟩ := exists_encode_of_covers hr hw
    exact ⟨i, (decode_eq_command_iff w i).2 hi, hname⟩
  · intro huncovered
    refine (decode_illegal_iff w).2 ?_
    rintro ⟨i, rfl⟩
    obtain ⟨r, hr, hcovers⟩ := exists_row_covers_encode i
    exact absurd hcovers (by simp [huncovered r hr])

/- The illegal words -/

/-- Which opcodes and immediates a command has (R65, R66). -/
theorem exists_opcode_operand_iff (o : BitVec 4) (b : Byte) :
    (∃ i : Instr, o = i.opcode ∧ b = i.operand) ↔ o ≠ 0 ∧ o.toNat < 6 ∧ (b = 0 ∨ o = 2) := by
  constructor
  · rintro ⟨i, rfl, rfl⟩
    cases i <;> simp [Instr.opcode, Instr.operand]
  · rintro ⟨hne, hlt, hb⟩
    have hcases : ∀ o : BitVec 4, o ≠ 0 → o.toNat < 6 → o = 1 ∨ o = 2 ∨ o = 3 ∨ o = 4 ∨ o = 5 := by decide
    rcases hcases o hne hlt with rfl | rfl | rfl | rfl | rfl
    · exact ⟨.crcInit, rfl, hb.resolve_right (by decide)⟩
    · exact ⟨.crcByte b, rfl, rfl⟩
    · exact ⟨.frmEncode, rfl, hb.resolve_right (by decide)⟩
    · exact ⟨.frmValidate, rfl, hb.resolve_right (by decide)⟩
    · exact ⟨.stsClear, rfl, hb.resolve_right (by decide)⟩

/-- The legal words, by their fields: the complement of R67. -/
theorem exists_encode_eq_iff (w : Word) :
    (∃ i, encode i = w) ↔
      (wordOp w ≠ 0 ∧ (wordOp w).toNat < 6 ∧ (wordImm8 w = 0 ∨ wordOp w = 2)) ∧ wordRsv0 w = 0 ∧ wordRsv1 w = 0 := by
  rw [← exists_opcode_operand_iff]
  simp only [encode_eq_iff, ← and_assoc, exists_and_right]

/-- An illegal word reports ILLEGAL_COMMAND and does nothing else (R93). -/
theorem Machine.executeCommand_of_illegal {w : Word} {why : IllegalReason} (hd : decode w = .illegal why)
    (s : Machine.State) :
    Machine.executeCommand w s = .next { s with result := .illegalCommand, err := true } := by
  rcases Machine.executeCommand_cases w s with ⟨i, hi, -⟩ | ⟨-, -, e⟩
  · cases hd.symm.trans hi
  · simp [e, Machine.State.report, Machine.ResultCode.failed]

/-- Settles O4: an illegal word encodes no command, and only the report of R93 follows it. -/
theorem illegalWordsOnlyReport : Obligations.IllegalWordsOnlyReport := by
  intro w
  constructor
  · rw [decode_illegal_iff, exists_encode_eq_iff]
    simp only [wordOp, wordRsv0, wordRsv1, wordImm8, not_and_or, not_or, not_lt, not_not, or_assoc, ne_eq]
    tauto
  · intro why hd s
    exact ⟨Machine.executeCommand_of_illegal hd s,
      (Machine.access_cmd w s).trans (Machine.executeCommand_of_illegal hd _)⟩

/-- Settles O1: the legal words are encodings; the illegal ones are evaluated. -/
theorem opcodeWordsDecode : Obligations.OpcodeWordsDecode :=
  ⟨decode_encode .crcInit, decode_encode (.crcByte 0x01), decode_encode (.crcByte 0xFF), decode_encode .frmEncode,
    decode_encode .frmValidate, decode_encode .stsClear, by decide, by decide, by decide, by decide, by decide,
    by decide⟩

end Sys2Proof
end

section
/-! PROOFS. The assembler (30_encoding.md R69, R70): what a mnemonic writes to CMD, and what the pseudo-instructions
expand to. -/

namespace Sys2Proof.Machine

/- Mnemonics -/

/-- A well-formed statement assembles to the accesses of its expansion. -/
theorem assemble_singleton {st : AsmStmt} (h : st.wf = true) :
    assemble [st] = some ((expandStmt st).map lineStep) := by
  simp [assemble, h]

/-- A statement out of range is refused (R69). -/
theorem assemble_singleton_of_not_wf {st : AsmStmt} (h : st.wf = false) : assemble [st] = none := by
  simp [assemble, h]

/-- The CMD value of R69 for `CRC.BYTE imm8` is the encoding. -/
theorem ofNat_crcByte (b : Byte) : BitVec.ofNat 32 (2 ||| (b.toNat <<< 8)) = encode (.crcByte b) := by
  refine BitVec.eq_of_toNat_eq ?_
  have hb : b.toNat % 4294967296 = b.toNat := Nat.mod_eq_of_lt (by omega)
  simp [encode, hb]

/-- Settles O49, statement by statement. -/
theorem assemblerWritesEncodings : Obligations.AssemblerWritesEncodings := by
  refine ⟨assemble_singleton rfl, fun b => ?_, assemble_singleton rfl, assemble_singleton rfl, assemble_singleton rfl,
    fun n hn => ?_, fun t v hv => ?_⟩
  · rw [assemble_singleton (st := .crcByte b.toNat) (decide_eq_true b.isLt), ← ofNat_crcByte]
    rfl
  · exact assemble_singleton_of_not_wf (decide_eq_false hn.not_gt)
  · have hvalue : asmValueWf v = false := decide_eq_false hv.not_gt
    exact assemble_singleton_of_not_wf (by simp [AsmStmt.wf, AsmLine.wf, hvalue])

/- Pseudo-instructions -/

/-- A load stores each element of the list at its index from the first one on (R70). -/
theorem asmLoad_eq_mapIdx (store : Nat → Nat → AsmLine) (i : Nat) (bs : List Nat) :
    asmLoad store i bs = bs.mapIdx fun k b => store (k + i) b := by
  induction bs generalizing i with
  | nil => rfl
  | cons b bs ih => simp [asmLoad, ih, List.mapIdx_cons, Nat.add_assoc, Nat.add_comm i 1]

/-- Settles O50: the loads by induction on their lists, the others as written. -/
theorem pseudoInstructionsExpand : Obligations.PseudoInstructionsExpand := by
  refine ⟨fun i b => rfl, fun i b => rfl, fun bytes => ?_, fun a pdu => ?_, fun bytes => ?_, rfl⟩
  · exact congrArg _ (List.map_eq_flatMap ..)
  · rw [expandStmt, asmLoad_eq_mapIdx]
    rfl
  · rw [expandStmt, asmLoad_eq_mapIdx]
    rfl

end Sys2Proof.Machine
end

section
/-! PROOFS. The CRC16 engine (40_crc.md R71 to R76, 93_implementation_defined.md G2): the shift loop as a linear
bijection, the table form of a step, and the streaming commands. -/

namespace Sys2Proof.Machine

/- The shift loop -/

/-- An iteration whose tested bit is 0 only shifts (R71). -/
theorem crcShift_of_even {r : Half} (h : r.getLsbD 0 = false) : crcShift r = r >>> 1 := by
  rw [crcShift, h, if_neg Bool.false_ne_true]

/-- The two branches of an iteration as one XOR (R71). -/
theorem crcShift_eq_xor (r : Half) : crcShift r = (r >>> 1) ^^^ (if r.getLsbD 0 then Config.crcPoly else 0) := by
  rw [crcShift]
  split
  · rfl
  · exact BitVec.xor_zero.symm

/-- The polynomial's top bit keeps the bit an iteration shifts out. -/
theorem getLsbD_crcShift_top (r : Half) : (crcShift r).getLsbD 15 = r.getLsbD 0 := by
  rw [crcShift_eq_xor, BitVec.getLsbD_xor, BitVec.getLsbD_ushiftRight, BitVec.getLsbD_of_ge r _ (by decide)]
  cases r.getLsbD 0 <;> rfl

/-- An iteration is linear: whether it XORs the polynomial depends on one bit alone (R76 law 2). -/
theorem crcShift_xor : Function.Semiconj₂ crcShift (· ^^^ ·) (· ^^^ ·) := by
  intro x y
  have hpoly : (if (x ^^^ y).getLsbD 0 then Config.crcPoly else 0) =
      (if x.getLsbD 0 then Config.crcPoly else 0) ^^^ (if y.getLsbD 0 then Config.crcPoly else 0) := by
    rw [BitVec.getLsbD_xor]
    cases x.getLsbD 0 <;> cases y.getLsbD 0 <;> simp
  simp only [crcShift_eq_xor, hpoly, BitVec.ushiftRight_xor_distrib]
  ac_rfl

theorem eq_zero_of_crcShift_eq_zero {r : Half} (h : crcShift r = 0) : r = 0 := by
  have heven : r.getLsbD 0 = false := by rw [← getLsbD_crcShift_top, h]; rfl
  have hshift : r >>> 1 = 0 := (crcShift_of_even heven).symm.trans h
  refine BitVec.eq_of_getLsbD_eq fun i _ => ?_
  cases i with
  | zero => exact heven
  | succ i => simpa [Nat.add_comm] using congrArg (·.getLsbD i) hshift

theorem crcShift_injective : Function.Injective crcShift := by
  intro x y h
  have hzero : crcShift (x ^^^ y) = 0 := (crcShift_xor x y).trans (BitVec.xor_eq_zero_iff.2 h)
  exact BitVec.xor_eq_zero_iff.1 (eq_zero_of_crcShift_eq_zero hzero)

theorem crcShifts_eq_iterate (n : Nat) : crcShifts n = crcShift^[n] := by
  induction n with
  | zero => rfl
  | succ n ih => funext r; exact congrFun ih _

theorem crcShifts_xor (n : Nat) (x y : Half) : crcShifts n (x ^^^ y) = crcShifts n x ^^^ crcShifts n y := by
  rw [crcShifts_eq_iterate]
  exact crcShift_xor.iterate n x y

theorem crcShifts_bijective (n : Nat) : Function.Bijective (crcShifts n) := by
  rw [crcShifts_eq_iterate]
  exact (Finite.injective_iff_bijective.1 crcShift_injective).iterate n

/-- As long as the tested bits are 0 the loop is a shift. -/
theorem crcShifts_of_low_zero {n : Nat} {r : Half} (h : ∀ i < n, r.getLsbD i = false) : crcShifts n r = r >>> n := by
  induction n generalizing r with
  | zero => exact (BitVec.ushiftRight_zero r).symm
  | succ n ih =>
    have hlow : ∀ i < n, (r >>> 1).getLsbD i = false := fun i hi => by
      simpa [Nat.add_comm] using h (i + 1) (by omega)
    calc crcShifts (n + 1) r
      _ = crcShifts n (r >>> 1) := by rw [crcShifts, crcShift_of_even (h 0 (by omega))]
      _ = r >>> 1 >>> n := ih hlow
      _ = r >>> (n + 1) := by rw [← BitVec.shiftRight_add, Nat.add_comm]

/-- Settles O5: the loop of R71 is the iterate of its body. -/
theorem crcStepIsEightShifts : Obligations.CrcStepIsEightShifts :=
  fun r b => congrFun (crcShifts_eq_iterate 8) (r ^^^ b.setWidth 16)

/- A step -/

/-- Only the XOR of accumulator and byte enters the loop (R71). -/
theorem crcStep_eq_crcStep_xor (r : Half) (b : Byte) : crcStep r b = crcStep (r ^^^ b.setWidth 16) 0 := by
  simp [crcStep]

theorem crcStep_zero_zero : crcStep 0 0 = 0 := by decide

theorem crcStep_xor (r₁ r₂ : Half) (b₁ b₂ : Byte) :
    crcStep (r₁ ^^^ r₂) (b₁ ^^^ b₂) = crcStep r₁ b₁ ^^^ crcStep r₂ b₂ := by
  simp only [crcStep, ← crcShifts_xor, BitVec.setWidth_xor]
  congr 1
  ac_rfl

/-- The second part of a message continues from the accumulator of the first (R76 law 1). -/
theorem crc16_append (m n : List Byte) : crc16 (m ++ n) = n.foldl crcStep (crc16 m) := List.foldl_append

/-- Settles O9: linearity and bijectivity are the shift loop's. -/
theorem crcStepIsLinearAndInvertible : Obligations.CrcStepIsLinearAndInvertible := by
  refine ⟨crc16_append, crcStep_xor, crcStep_zero_zero, ?_, crcStep_eq_crcStep_xor⟩
  have hstep : (fun r : Half => crcStep r 0) = crcShifts 8 := funext fun r => by simp [crcStep]
  rw [hstep]
  exact crcShifts_bijective 8

/- The table form and the residue -/

/-- Folding the accumulator's own low byte clears it, and the loop only shifts. -/
theorem crcStep_lowByte (r : Half) : crcStep r (lowByte r) = r >>> 8 := by
  have hlow : ∀ i < 8, (r ^^^ (lowByte r).setWidth 16).getLsbD i = false := fun i hi => by
    simp [lowByte, hi, show i < 16 by omega]
  have hbyte : (lowByte r).setWidth 16 >>> 8 = 0 := by
    rw [← BitVec.setWidth_ushiftRight (by decide), BitVec.ushiftRight_eq_zero le_rfl]
    rfl
  rw [crcStep, crcShifts_of_low_zero hlow, BitVec.ushiftRight_xor_distrib, hbyte]
  exact BitVec.xor_zero

/-- The high byte passes the loop by shifts alone, the low byte goes through the table (G2). -/
theorem crcStep_eq_table (r : Half) (b : Byte) : crcStep r b = (r >>> 8) ^^^ crcStep 0 (lowByte r ^^^ b) := by
  have hbyte : lowByte r ^^^ (lowByte r ^^^ b) = b := by rw [← BitVec.xor_assoc, BitVec.xor_self, BitVec.zero_xor]
  calc crcStep r b
    _ = crcStep (r ^^^ 0) (lowByte r ^^^ (lowByte r ^^^ b)) := congrArg₂ crcStep BitVec.xor_zero.symm hbyte.symm
    _ = (r >>> 8) ^^^ crcStep 0 (lowByte r ^^^ b) := by rw [crcStep_xor, crcStep_lowByte]

/-- Settles O11: the general form is `crcStep_eq_table`; the sample entries are evaluated. -/
theorem tableDrivenFormAgrees : Obligations.TableDrivenFormAgrees :=
  ⟨crcStep_eq_table, by decide, by decide, by decide, by decide⟩

/-- Folding the accumulator's own two bytes, low byte first, shifts all of it out. -/
theorem crcStep_lowByte_highByte (r : Half) : crcStep (crcStep r (lowByte r)) (highByte r) = 0 := by
  have hhigh : highByte r = lowByte (r >>> 8) := by
    ext i hi
    simp [highByte, lowByte]
  rw [crcStep_lowByte, hhigh, crcStep_lowByte, ← BitVec.shiftRight_add]
  exact BitVec.ushiftRight_eq_zero (by decide)

/-- Settles O10: the CRC bytes are the two bytes of the accumulator they are folded into. -/
theorem crcResidueIsZero : Obligations.CrcResidueIsZero := fun m =>
  (crc16_append m _).trans (crcStep_lowByte_highByte (crc16 m))

/- CRC.INIT and CRC.BYTE -/

/-- Reporting OK keeps ERR (R20, R92). -/
theorem State.report_ok (s : State) : s.report .ok = { s with result := .ok } := by
  simp [State.report, ResultCode.failed]

theorem exec_crcInit (s : State) : exec .crcInit s = .next { s with acc := 0xFFFF, result := .ok } :=
  congrArg Host.Outcome.next (s.setAcc Config.crcInit).report_ok

theorem exec_crcByte (b : Byte) (s : State) :
    exec (.crcByte b) s = .next { s with acc := crcStep s.acc b, result := .ok } :=
  congrArg Host.Outcome.next (s.setAcc (crcStep s.acc b)).report_ok

/-- CRC and CRCW are two views of ACC alone (R21, R22). -/
theorem State.readReg_crc_crcw {s : State} {r : Half} (h : s.acc = r) :
    s.readReg .crc = r.setWidth 32 ∧ s.readReg .crcw = (swap16 r).setWidth 32 := by
  subst h
  exact ⟨rfl, rfl⟩

/-- Settles O6: the fold is `List.foldl`; the reference value is evaluated. -/
theorem crcOfBytesFoldsFromFFFF : Obligations.CrcOfBytesFoldsFromFFFF := by
  refine ⟨rfl, fun m b => crc16_append m [b], by decide +kernel, by decide, fun s m hacc => ?_⟩
  obtain ⟨-, hcrcw⟩ := State.readReg_crc_crcw hacc
  exact hcrcw

/-- Settles O7: both bytes of 0xFFFF are equal, so CRC and CRCW read alike. -/
theorem crcInitStartsAStream : Obligations.CrcInitStartsAStream := by
  refine ⟨decode_encode .crcInit, fun s => ⟨exec_crcInit s, ?_⟩⟩
  have hswap : swap16 0xFFFF = 0xFFFF := by decide
  obtain ⟨hcrc, hcrcw⟩ := State.readReg_crc_crcw (s := { s with acc := 0xFFFF, result := .ok }) rfl
  exact ⟨hcrc, hcrcw.trans (congrArg (·.setWidth 32) hswap)⟩

/-- A word with a reserved bit set only reports ILLEGAL_COMMAND (R67, R93). -/
theorem executeCommand_of_reserved {w : Word} (h : wordRsv0 w ≠ 0 ∨ wordRsv1 w ≠ 0) (s : State) :
    executeCommand w s = .next { s with result := .illegalCommand, err := true } := by
  have hnone : ¬ ∃ i, encode i = w := by
    rw [exists_encode_eq_iff]
    tauto
  obtain ⟨why, hd⟩ := (decode_illegal_iff w).2 hnone
  exact executeCommand_of_illegal hd s

/-- Settles O8: the row's words are encodings, its neighbours have a reserved bit set, and the values are evaluated. -/
theorem crcByteFoldsOneByte : Obligations.CrcByteFoldsOneByte :=
  ⟨fun w hw => (decode_eq_command_iff w _).2 ((and_crcByteMask_eq_iff_encode w).1 hw), exec_crcByte,
    fun _ s _ hrsv => executeCommand_of_reserved hrsv s, by decide, by decide, by decide⟩

/- Streaming -/

/-- The word neither restarts a stream nor takes its accumulator for a frame (R75). -/
def KeepsStream (w : Word) : Prop :=
  decode w ≠ .command .crcInit ∧ decode w ≠ .command .frmEncode ∧ decode w ≠ .command .frmValidate

/-- The bytes a host step folds into a running stream: one or none (R75). -/
def HostStep.foldedBytes (h : HostStep) : List Byte := (h.commandWord.bind streamedByte).toList

/-- A word that keeps the stream folds its byte, or keeps ACC (R75, R91, R93). -/
theorem executeCommand_acc {w : Word} {s t : State} (hw : KeepsStream w) (h : executeCommand w s = .next t) :
    t.acc = (streamedByte w).toList.foldl crcStep s.acc := by
  obtain ⟨hinit, hencode, hvalidate⟩ := hw
  rcases executeCommand_cases w s with ⟨i, hd, e⟩ | ⟨why, hd, e⟩ <;> rw [streamedByte, hd]
  · cases i with
    | crcInit => exact absurd hd hinit
    | crcByte b => cases h.symm.trans e; rfl
    | frmEncode => exact absurd hd hencode
    | frmValidate => exact absurd hd hvalidate
    | stsClear => cases h.symm.trans e; rfl
  · cases h.symm.trans e
    rfl

/-- An admitted access that keeps the stream folds the byte of its CRC.BYTE, or keeps ACC. -/
theorem step_stream {s : State} {a : Access} {rest : List HostStep} (hp : s.pending = .access a :: rest)
    (ha : a.admitted = true) (hw : ∀ w, (HostStep.access a).commandWord = some w → KeepsStream w) :
    ∃ t, step s = .next t ∧ t.pending = rest ∧ t.acc = (HostStep.access a).foldedBytes.foldl crcStep s.acc := by
  rcases step_admitted hp ha with ⟨w, hcmd, hstep⟩ | ⟨hnone, t, hstep, hpending, -, -, hacc, -⟩
  · obtain ⟨t, ht⟩ := executeCommand_next w ((s.setPending rest).respond .writeDone)
    obtain ⟨hpending, -⟩ := executeCommand_own ht
    refine ⟨t, hstep.trans ht, hpending, ?_⟩
    simpa [HostStep.foldedBytes, hcmd] using executeCommand_acc (hw w hcmd) ht
  · exact ⟨t, hstep, hpending, by simpa [HostStep.foldedBytes, hnone] using hacc⟩

/-- From any accumulator: a stream runs to its end and folds its bytes in order (R75). -/
theorem run_stream (stream : List HostStep) {rest : List HostStep} {s : State} (hp : s.pending = stream ++ rest)
    (hadm : ∀ h ∈ stream, ∃ a, h = .access a ∧ a.admitted = true)
    (hcmd : ∀ h ∈ stream, ∀ w, h.commandWord = some w → KeepsStream w) :
    ∃ t, Host.Core.run Sys2Proof.core stream.length s = .next t ∧ t.pending = rest ∧
      t.acc = (stream.flatMap HostStep.foldedBytes).foldl crcStep s.acc := by
  induction stream generalizing s with
  | nil => exact ⟨s, rfl, hp, rfl⟩
  | cons h stream ih =>
    obtain ⟨⟨a, rfl, ha⟩, hadmRest⟩ := List.forall_mem_cons.1 hadm
    obtain ⟨hw, hcmdRest⟩ := List.forall_mem_cons.1 hcmd
    obtain ⟨u, hstep, hu, hacc⟩ := step_stream hp ha hw
    obtain ⟨t, hrun, ht, hend⟩ := ih hu hadmRest hcmdRest
    exact ⟨t, (run_succ _ hstep).trans hrun, ht, by rw [hend, hacc, List.flatMap_cons, List.foldl_append]⟩

/-- The step that writes CRC.INIT starts a stream (R73). -/
theorem step_crcInit {s : State} {rest : List HostStep} (hp : s.pending = cmdWrite 0x00000001 :: rest) :
    ∃ t, step s = .next t ∧ t.pending = rest ∧ t.acc = Config.crcInit := by
  have hstep : step s = exec .crcInit ((s.setPending rest).respond .writeDone) :=
    (step_cmdWrite hp).trans (executeCommand_of_decode (decode_encode .crcInit) _)
  exact ⟨_, hstep.trans (exec_crcInit _), rfl, rfl⟩

/-- Settles O12: CRC.INIT starts the fold at 0xFFFF, and the stream carries it on. -/
theorem streamingEqualsCrc16 : Obligations.StreamingEqualsCrc16 := by
  intro s stream rest hp hadm hcmd
  obtain ⟨u, hstep, hu, hinit⟩ := step_crcInit hp
  obtain ⟨t, hrun, ht, hacc⟩ := run_stream stream hu hadm hcmd
  have hcrc : t.acc = crc16 ((stream.filterMap HostStep.commandWord).filterMap streamedByte) := by
    rw [hacc, hinit, List.filterMap_filterMap, List.filterMap_eq_flatMap_toList]
    rfl
  exact ⟨t, (run_succ _ hstep).trans hrun, ht, State.readReg_crc_crcw hcrc⟩

end Sys2Proof.Machine
end

section
/-! PROOFS. The framer (41_framer.md R77 to R79): the state FRM.ENCODE leaves, what it reads, and the round trip through
FRM.VALIDATE. -/

namespace Sys2Proof.Machine

/- Reports and stores that are repeated -/

/-- A report repeated is one report: ERR is sticky (R20, R92). -/
theorem State.report_report (s : State) (c : ResultCode) : (s.report c).report c = s.report c := by
  simp [State.report]

/-- Reporting a failure sets ERR (R20, R92). -/
theorem State.report_of_ne_ok {c : ResultCode} (hc : c ≠ .ok) (s : State) :
    s.report c = { s with result := c, err := true } := by
  simp [State.report, (ResultCode.failed_eq_true c).2 hc]

/-- Of a byte of TXBUF stored twice the last store counts. -/
theorem State.writeTx_writeTx_same (s : State) (i : Nat) (b b' : Byte) :
    (s.writeTx i b).writeTx i b' = s.writeTx i b' :=
  s.writeByte_writeByte_same _ _ _

/-- A store to TXBUF that changes nothing still changes nothing after a store elsewhere in TXBUF. -/
theorem State.writeTx_absorbed {s : State} {i j : Nat} {b : Byte} (hs : s.writeTx i b = s) (hij : j ≠ i) (b' : Byte) :
    (s.writeTx j b').writeTx i b = s.writeTx j b' := by
  have hne : txOffset j ≠ txOffset i := by simp only [txOffset]; omega
  calc (s.writeTx j b').writeTx i b
    _ = (s.writeTx i b).writeTx j b' := by
        simp only [State.writeTx, State.writeByte, Memory.write_comm s.mem b' b hne]
    _ = s.writeTx j b' := by rw [hs]

/-- A frame stored again over itself changes no buffer (R77, corner cases). -/
theorem State.putFrame_putFrame (s : State) (len : Nat) (r : Half) :
    (s.putFrame len r).putFrame len r = s.putFrame len r := by
  have haddr : (s.putFrame len r).writeTx 0 s.txaddr = s.putFrame len r :=
    writeTx_absorbed (writeTx_absorbed (s.writeTx_writeTx_same 0 _ _) (by omega) _) (by omega) _
  have hlow : (s.putFrame len r).writeTx (len + 1) (lowByte r) = s.putFrame len r :=
    writeTx_absorbed (State.writeTx_writeTx_same _ _ _ _) (by omega) _
  have hhigh : (s.putFrame len r).writeTx (len + 2) (highByte r) = s.putFrame len r :=
    State.writeTx_writeTx_same _ _ _ _
  calc (s.putFrame len r).putFrame len r
    _ = (((s.putFrame len r).writeTx 0 s.txaddr).writeTx (len + 1) (lowByte r)).writeTx (len + 2) (highByte r) := rfl
    _ = s.putFrame len r := by rw [haddr, hlow, hhigh]

/- The state FRM.ENCODE leaves -/

/-- The state after a frame with a PDU of `len` bytes and the CRC `r` is stored and reported (R77). -/
def State.withFrame (s : State) (len : Nat) (r : Half) : State :=
  (((s.putFrame len r).setAcc r).setTxflen (BitVec.ofNat 9 (len + 3))).report .ok

/-- The state a successful FRM.ENCODE leaves (R77). -/
def State.framed (s : State) : State := s.withFrame s.txlen.toNat (s.frameCrc s.txlen.toNat)

theorem exec_frmEncode_of_length {s : State} (hlo : 1 ≤ s.txlen.toNat) (hhi : s.txlen.toNat ≤ 253) :
    exec .frmEncode s = .next s.framed := by
  rcases execFrmEncode_cases s with ⟨hbad, -⟩ | ⟨-, -, e⟩
  · have hbad' : s.txlen.toNat < 1 ∨ 253 < s.txlen.toNat := hbad
    omega
  · exact e

theorem exec_frmEncode_of_badLength {s : State} (h : s.txlen.toNat < 1 ∨ 253 < s.txlen.toNat) :
    exec .frmEncode s = .next (s.failEncode .lengthRange) := by
  rcases execFrmEncode_cases s with ⟨-, e⟩ | ⟨hlo, hhi, -⟩
  · exact e
  · have hhi' : s.txlen.toNat ≤ 253 := hhi
    omega

namespace State

variable (s : State)

/-- Only the frame's own bytes, ACC, TXFLEN and RESULT change (R77, R94). -/
theorem withFrame_eq (len : Nat) (r : Half) : s.withFrame len r = { s with
    mem := (s.putFrame len r).mem, acc := r, txflen := BitVec.ofNat 9 (len + 3), result := .ok } := by
  rw [withFrame, report_ok, setTxflen, setAcc, putFrame_eq]

theorem txByte_withFrame (len : Nat) (r : Half) (i : Nat) :
    (s.withFrame len r).txByte i = (s.putFrame len r).txByte i := by
  rw [withFrame, txByte_report, txByte_setTxflen, txByte_setAcc]

/-- The same frame stored and reported again changes nothing (R77, corner cases). -/
theorem withFrame_withFrame (len : Nat) (r : Half) : (s.withFrame len r).withFrame len r = s.withFrame len r := by
  have hmem : ((s.withFrame len r).putFrame len r).mem = ((s.putFrame len r).putFrame len r).mem := rfl
  rw [(s.withFrame len r).withFrame_eq, hmem, putFrame_putFrame, s.withFrame_eq]

@[simp] theorem framed_txaddr : s.framed.txaddr = s.txaddr := by rw [framed, withFrame_eq]

@[simp] theorem framed_txlen : s.framed.txlen = s.txlen := by rw [framed, withFrame_eq]

@[simp] theorem framed_acc : s.framed.acc = s.frameCrc s.txlen.toNat := by rw [framed, withFrame_eq]

@[simp] theorem framed_txflen : s.framed.txflen = BitVec.ofNat 9 (s.txlen.toNat + 3) := by
  rw [framed, withFrame_eq]

/-- TXFLEN holds the length of every frame of a legal PDU (R78). -/
theorem framed_txflen_toNat {s : State} (hhi : s.txlen.toNat ≤ 253) :
    s.framed.txflen.toNat = s.txlen.toNat + 3 := by
  rw [framed_txflen, BitVec.toNat_ofNat, Nat.mod_eq_of_lt (by omega)]

@[simp] theorem txByte_framed_zero : s.framed.txByte 0 = s.txaddr := by
  rw [framed, txByte_withFrame, txByte_putFrame_zero]

@[simp] theorem txByte_framed_low : s.framed.txByte (s.txlen.toNat + 1) = lowByte (s.frameCrc s.txlen.toNat) := by
  rw [framed, txByte_withFrame, txByte_putFrame_low]

@[simp] theorem txByte_framed_high :
    s.framed.txByte (s.txlen.toNat + 2) = highByte (s.frameCrc s.txlen.toNat) := by
  rw [framed, txByte_withFrame, txByte_putFrame_high]

/-- The PDU stays in place (R77). -/
theorem txByte_framed_pdu {i : Nat} (hlo : 1 ≤ i) (hhi : i ≤ s.txlen.toNat) : s.framed.txByte i = s.txByte i := by
  rw [framed, txByte_withFrame, txByte_putFrame_other _ _ _ (by omega) (by omega) (by omega)]

/-- The CRC that FRM.ENCODE computes is that of the address and the PDU as the frame holds them (R58, R77). -/
theorem crc16_txBytes_framed : crc16 (s.framed.txBytes (s.txlen.toNat + 1)) = s.frameCrc s.txlen.toNat := by
  have hbytes : s.framed.txBytes (s.txlen.toNat + 1) = (s.writeTx 0 s.txaddr).txBytes (s.txlen.toNat + 1) := by
    refine List.map_congr_left fun i hi => ?_
    have hlt : i < s.txlen.toNat + 1 := List.mem_range.1 hi
    rw [framed, txByte_withFrame, putFrame, txByte_writeTx_other _ _ (by omega), txByte_writeTx_other _ _ (by omega)]
  rw [hbytes, frameCrc]

/-- A frame ends in the CRC of the bytes before it, low byte first (R61, R62). -/
theorem crcValid_framed : crcValid (s.framed.txBytes (s.txlen.toNat + 3)) := by
  refine ⟨s.framed.txBytes (s.txlen.toNat + 1), lowByte (s.frameCrc s.txlen.toNat),
    highByte (s.frameCrc s.txlen.toNat), ?_, by rw [crc16_txBytes_framed, joinBytes_split]⟩
  simp [txBytes, List.range_succ]

/-- The CRC of a frame depends on TXADDR and the PDU alone (R77). -/
theorem frameCrc_congr {s u : State} {len : Nat} (haddr : u.txaddr = s.txaddr)
    (hpdu : ∀ i, 1 ≤ i → i ≤ len → u.txByte i = s.txByte i) : u.frameCrc len = s.frameCrc len := by
  rw [frameCrc_eq, frameCrc_eq, haddr]
  congr 2
  exact List.map_congr_left fun i hi => hpdu (i + 1) (by omega) (List.mem_range.1 hi)

/-- The bytes of a frame depend on TXADDR, TXLEN and the PDU alone (R77). -/
theorem txByte_framed_congr {s u : State} (haddr : u.txaddr = s.txaddr) (hlen : u.txlen = s.txlen)
    (hpdu : ∀ i, 1 ≤ i → i ≤ s.txlen.toNat → u.txByte i = s.txByte i) {i : Nat} (hi : i < s.txlen.toNat + 3) :
    u.framed.txByte i = s.framed.txByte i := by
  have hcrc : u.frameCrc u.txlen.toNat = s.frameCrc s.txlen.toNat := by rw [hlen, frameCrc_congr haddr hpdu]
  obtain rfl | hmid | rfl | rfl :
      i = 0 ∨ (1 ≤ i ∧ i ≤ s.txlen.toNat) ∨ i = s.txlen.toNat + 1 ∨ i = s.txlen.toNat + 2 := by omega
  · simp [haddr]
  · obtain ⟨hlo, hhi⟩ := hmid
    rw [u.txByte_framed_pdu hlo (hlen ▸ hhi), s.txByte_framed_pdu hlo hhi, hpdu i hlo hhi]
  · rw [s.txByte_framed_low, ← hcrc, ← u.txByte_framed_low, hlen]
  · rw [s.txByte_framed_high, ← hcrc, ← u.txByte_framed_high, hlen]

/-- Framing the framed state stores the same frame and the same CRC (R77, corner cases). -/
theorem framed_framed : s.framed.framed = s.framed := by
  have hcrc : s.framed.frameCrc s.txlen.toNat = s.frameCrc s.txlen.toNat :=
    frameCrc_congr s.framed_txaddr fun _ => s.txByte_framed_pdu
  calc s.framed.framed
    _ = s.framed.withFrame s.txlen.toNat (s.frameCrc s.txlen.toNat) := by rw [framed, framed_txlen, hcrc]
    _ = s.framed := s.withFrame_withFrame _ _

end State

/- The obligations about FRM.ENCODE alone -/

/-- Settles O13: on success the three stored bytes are `putFrame`'s, which leaves the other bytes alone. -/
theorem encodeAssemblesFrame : Obligations.EncodeAssemblesFrame := by
  refine ⟨decode_encode .frmEncode, fun s => ⟨fun hbad => ?_, ?_⟩⟩
  · rw [exec_frmEncode_of_badLength hbad]
    exact congrArg Host.Outcome.next ((s.setTxflen 0).report_of_ne_ok (by decide))
  · rintro len r rfl hlo hhi hcrc
    have hr : s.frameCrc s.txlen.toNat = r := (s.frameCrc_eq _).trans hcrc.symm
    refine ⟨(s.putFrame s.txlen.toNat r).mem, ?_, s.txByte_putFrame_zero _ r, s.txByte_putFrame_low _ r,
      s.txByte_putFrame_high _ r, fun a => s.byteAt_putFrame_other _ r⟩
    rw [exec_frmEncode_of_length hlo hhi, State.framed, hr, s.withFrame_eq]

/-- Settles O14: TXFLEN has the bits for TXLEN + 3. -/
theorem frameLengthFollowsTxlen : Obligations.FrameLengthFollowsTxlen := by
  have hlength (s : State) (hlo : 1 ≤ s.txlen.toNat) (hhi : s.txlen.toNat ≤ 253) :
      ∃ t, exec .frmEncode s = .next t ∧ t.txflen.toNat = s.txlen.toNat + 3 :=
    ⟨s.framed, exec_frmEncode_of_length hlo hhi, State.framed_txflen_toNat hhi⟩
  refine ⟨hlength, fun s h9 => ?_⟩
  have hnine : s.txlen.toNat = 9 := congrArg BitVec.toNat h9
  obtain ⟨t, hexec, hflen⟩ := hlength s (by omega) (by omega)
  exact ⟨t, hexec, BitVec.eq_of_toNat_eq (by rw [hflen, hnine]; rfl)⟩

/-- Settles O16: a bad length is bad in both states, and a frame is built from the shared inputs. -/
theorem encodeReadsOnlyItsInputs : Obligations.EncodeReadsOnlyItsInputs := by
  intro s u haddr hlen hpdu
  by_cases hok : 1 ≤ s.txlen.toNat ∧ s.txlen.toNat ≤ 253
  · obtain ⟨hlo, hhi⟩ := hok
    refine ⟨s.framed, u.framed, exec_frmEncode_of_length hlo hhi,
      exec_frmEncode_of_length (hlen ▸ hlo) (hlen ▸ hhi), rfl, ?_, fun _ => ⟨?_, fun i hi => ?_⟩⟩
    · rw [u.framed_txflen, s.framed_txflen, hlen]
    · rw [u.framed_acc, s.framed_acc, hlen, State.frameCrc_congr haddr hpdu]
    · rw [State.framed_txflen_toNat hhi] at hi
      exact State.txByte_framed_congr haddr hlen hpdu hi
  · have hbad : s.txlen.toNat < 1 ∨ 253 < s.txlen.toNat := by omega
    exact ⟨_, _, exec_frmEncode_of_badLength hbad, exec_frmEncode_of_badLength (hlen ▸ hbad), rfl, rfl,
      fun hresult => absurd hresult (by simp)⟩

/- FRM.VALIDATE: its length checks, and its verdict on a frame of legal length -/

theorem exec_frmValidate_of_tooShort {s : State} (h : s.rxlen.toNat < 4) :
    exec .frmValidate s = .next (s.failValidate .frameTooShort) :=
  if_pos h

theorem exec_frmValidate_of_tooLong {s : State} (h : 256 < s.rxlen.toNat) :
    exec .frmValidate s = .next (s.failValidate .frameTooLong) := by
  rcases execFrmValidate_cases s with ⟨hshort, -⟩ | ⟨-, e⟩ | ⟨-, hhi, -⟩ | ⟨-, hhi, -⟩ | ⟨-, hhi, -⟩
  case inr.inl => exact e
  all_goals omega

/-- The PDU length and the code of the two checks after the CRC step, in the order of R81. -/
def State.verdict (s : State) : Len × ResultCode :=
  if s.computedCrc s.rxlen.toNat ≠ s.receivedCrc s.rxlen.toNat then (0, .crcMismatch)
  else if s.addressRefused then (0, .unexpectedSlaveAddress)
  else (BitVec.ofNat 9 (s.rxlen.toNat - 3), .ok)

/-- The state FRM.VALIDATE leaves after its CRC step, with a PDU length and a code (R84 to R86). -/
def State.judged (s : State) (v : Len × ResultCode) : State := (s.crcChecked.setRxplen v.1).report v.2

/-- Past the length checks FRM.VALIDATE leaves its CRC step and its verdict (R81). -/
theorem exec_frmValidate_of_length {s : State} (hlo : 4 ≤ s.rxlen.toNat) (hhi : s.rxlen.toNat ≤ 256) :
    exec .frmValidate s = .next (s.judged s.verdict) := by
  rcases execFrmValidate_cases s with ⟨hshort, -⟩ | ⟨hlong, -⟩ | ⟨-, -, hcrc, e⟩ | ⟨-, -, hcrc, haddr, e⟩ |
    ⟨-, -, hcrc, haddr, e⟩
  · omega
  · omega
  · rw [State.verdict, if_pos hcrc]
    exact e
  · rw [State.verdict, if_neg (not_not.2 hcrc), if_pos haddr]
    exact e
  · rw [State.verdict, if_neg (not_not.2 hcrc), if_neg (by simp [haddr])]
    exact e

/-- The CRC step writes ACC and RXCRC, and the verdict RXPLEN and STATUS (R84 to R86). -/
theorem State.judged_eq (s : State) (v : Len × ResultCode) : s.judged v = { s with
    acc := s.computedCrc s.rxlen.toNat, rxcrcCalc := s.computedCrc s.rxlen.toNat,
    rxcrcRecv := s.receivedCrc s.rxlen.toNat, rxplen := v.1, result := v.2, err := s.err || v.2.failed } := by
  rw [judged, report, setRxplen, crcChecked, setRxcrc, setAcc]

@[simp] theorem State.judged_rxlen (s : State) (v : Len × ResultCode) : (s.judged v).rxlen = s.rxlen := by
  rw [judged_eq]

@[simp] theorem State.rxByte_judged (s : State) (v : Len × ResultCode) : (s.judged v).rxByte = s.rxByte := by
  funext i
  rw [judged, rxByte_report, rxByte_setRxplen, crcChecked, rxByte_setRxcrc, rxByte_setAcc]

/-- The CRC step depends on RXBUF alone (R80). -/
theorem State.crcs_congr {s u : State} (hbytes : u.rxByte = s.rxByte) (n : Nat) :
    u.computedCrc n = s.computedCrc n ∧ u.receivedCrc n = s.receivedCrc n := by
  simp only [computedCrc, receivedCrc, rxBytes, hbytes, and_self]

/-- The verdict depends on the inputs of R80 alone. -/
theorem State.verdict_congr {s u : State} (hlen : u.rxlen = s.rxlen) (hbytes : u.rxByte = s.rxByte)
    (hachk : u.achk = s.achk) (hexp : u.rxexp = s.rxexp) : u.verdict = s.verdict := by
  obtain ⟨hcomputed, hreceived⟩ := crcs_congr hbytes s.rxlen.toNat
  have haddr : u.addressRefused = s.addressRefused := by rw [addressRefused, hbytes, hachk, hexp, addressRefused]
  rw [verdict, hlen, hcomputed, hreceived, haddr, verdict]

/-- The CRC step and the verdict write no input of either (R80). -/
theorem State.verdict_judged (s : State) (v : Len × ResultCode) : (s.judged v).verdict = s.verdict :=
  verdict_congr (s.judged_rxlen v) (s.rxByte_judged v) (by rw [judged_eq]) (by rw [judged_eq])

/-- The same CRC step and verdict again change nothing. -/
theorem State.judged_judged (s : State) (v : Len × ResultCode) : (s.judged v).judged v = s.judged v := by
  obtain ⟨hcomputed, hreceived⟩ := crcs_congr (s.rxByte_judged v) s.rxlen.toNat
  rw [(s.judged v).judged_eq, judged_rxlen, hcomputed, hreceived, s.judged_eq]
  simp only [Bool.or_assoc, Bool.or_self]

theorem State.failEncode_failEncode (s : State) (c : ResultCode) : (s.failEncode c).failEncode c = s.failEncode c :=
  (s.setTxflen 0).report_report c

theorem State.failValidate_failValidate (s : State) (c : ResultCode) :
    (s.failValidate c).failValidate c = s.failValidate c :=
  (s.setRxplen 0).report_report c

/- Both commands, run again at once -/

/-- FRM.ENCODE takes the same way again: TXLEN is an input it does not write. -/
theorem exec_frmEncode_idempotent {s t : State} (h : exec .frmEncode s = .next t) : exec .frmEncode t = .next t := by
  by_cases hok : 1 ≤ s.txlen.toNat ∧ s.txlen.toNat ≤ 253
  · obtain ⟨hlo, hhi⟩ := hok
    cases h.symm.trans (exec_frmEncode_of_length hlo hhi)
    rw [exec_frmEncode_of_length (by simpa using hlo) (by simpa using hhi), s.framed_framed]
  · have hbad : s.txlen.toNat < 1 ∨ 253 < s.txlen.toNat := by omega
    cases h.symm.trans (exec_frmEncode_of_badLength hbad)
    rw [exec_frmEncode_of_badLength (by simpa using hbad), State.failEncode_failEncode]

/-- FRM.VALIDATE takes the same way again: it writes none of its inputs. -/
theorem exec_frmValidate_idempotent {s t : State} (h : exec .frmValidate s = .next t) :
    exec .frmValidate t = .next t := by
  obtain hshort | hlong | ⟨hlo, hhi⟩ :
      s.rxlen.toNat < 4 ∨ 256 < s.rxlen.toNat ∨ (4 ≤ s.rxlen.toNat ∧ s.rxlen.toNat ≤ 256) := by omega
  · cases h.symm.trans (exec_frmValidate_of_tooShort hshort)
    rw [exec_frmValidate_of_tooShort (by simpa using hshort), State.failValidate_failValidate]
  · cases h.symm.trans (exec_frmValidate_of_tooLong hlong)
    rw [exec_frmValidate_of_tooLong (by simpa using hlong), State.failValidate_failValidate]
  · cases h.symm.trans (exec_frmValidate_of_length hlo hhi)
    rw [exec_frmValidate_of_length (by simpa using hlo) (by simpa using hhi), s.verdict_judged, s.judged_judged]

/-- Settles O15: each command reads nothing it has changed, save the frame, which it stores as it is. -/
theorem encodeAndValidateAreIdempotent : Obligations.EncodeAndValidateAreIdempotent :=
  fun _ _ => ⟨exec_frmEncode_idempotent, exec_frmValidate_idempotent⟩

/- The round trip -/

/-- The receive buffer of `u` holds the frame that `s` has been given by FRM.ENCODE (R79). -/
def HoldsFrameOf (u s : State) : Prop := ∀ i, i < s.txlen.toNat + 3 → u.rxByte i = s.framed.txByte i

/-- The CRC of a received frame is the sender's. -/
theorem HoldsFrameOf.computedCrc {u s : State} (h : HoldsFrameOf u s) :
    u.computedCrc (s.txlen.toNat + 3) = s.frameCrc s.txlen.toNat := by
  rw [← s.crc16_txBytes_framed]
  refine congrArg crc16 (List.map_congr_left fun i hi => ?_)
  have hlt : i < s.txlen.toNat + 1 := List.mem_range.1 hi
  exact h i (by omega)

/-- The CRC a received frame carries is the sender's. -/
theorem HoldsFrameOf.receivedCrc {u s : State} (h : HoldsFrameOf u s) :
    u.receivedCrc (s.txlen.toNat + 3) = s.frameCrc s.txlen.toNat := by
  have hlow : u.rxByte (s.txlen.toNat + 1) = lowByte (s.frameCrc s.txlen.toNat) :=
    (h _ (by omega)).trans s.txByte_framed_low
  have hhigh : u.rxByte (s.txlen.toNat + 2) = highByte (s.frameCrc s.txlen.toNat) :=
    (h _ (by omega)).trans s.txByte_framed_high
  calc u.receivedCrc (s.txlen.toNat + 3)
    _ = joinBytes (u.rxByte (s.txlen.toNat + 2)) (u.rxByte (s.txlen.toNat + 1)) := rfl
    _ = s.frameCrc s.txlen.toNat := by rw [hlow, hhigh, joinBytes_split]

/-- The sender's address passes where it is expected or not checked (R85). -/
theorem HoldsFrameOf.addressRefused {u s : State} (h : HoldsFrameOf u s)
    (haddr : u.rxexp = s.txaddr ∨ u.achk = false) : u.addressRefused = false := by
  have hbyte : u.rxByte 0 = s.txaddr := (h 0 (by omega)).trans s.txByte_framed_zero
  rcases haddr with hexp | hoff
  · simp [State.addressRefused, hbyte, hexp]
  · simp [State.addressRefused, hoff]

/-- A received frame is judged good, with the sender's PDU length (R79). -/
theorem HoldsFrameOf.verdict {u s : State} (h : HoldsFrameOf u s) (hlen : u.rxlen.toNat = s.txlen.toNat + 3)
    (haddr : u.rxexp = s.txaddr ∨ u.achk = false) : u.verdict = (s.txlen, .ok) := by
  have hcrc : u.computedCrc u.rxlen.toNat = u.receivedCrc u.rxlen.toNat := by
    rw [hlen, h.computedCrc, h.receivedCrc]
  rw [State.verdict, if_neg (not_not.2 hcrc), if_neg (by simp [h.addressRefused haddr]), hlen, Nat.add_sub_cancel,
    BitVec.ofNat_toNat, BitVec.setWidth_eq]

/-- Settles O22: the sender's CRC is both the computed and the carried one, and the PDU was never moved. -/
theorem encodedFrameValidates : Obligations.EncodedFrameValidates := by
  intro s hlo hhi
  have hflen : s.framed.txflen.toNat = s.txlen.toNat + 3 := State.framed_txflen_toNat hhi
  refine ⟨s.framed, exec_frmEncode_of_length hlo hhi, hflen ▸ s.crcValid_framed, fun u hrxlen hbytes haddr => ?_⟩
  have hholds : HoldsFrameOf u s := fun i hi => hbytes i (hflen ▸ hi)
  have hlen : u.rxlen.toNat = s.txlen.toNat + 3 := (congrArg BitVec.toNat hrxlen).trans hflen
  have hexec : exec .frmValidate u = .next (u.judged (s.txlen, .ok)) := by
    rw [exec_frmValidate_of_length (by omega) (by omega), hholds.verdict hlen haddr]
  refine ⟨_, hexec, rfl, rfl, fun i hilo hihi => ?_⟩
  have hpdu : i ≤ s.txlen.toNat := hihi
  rw [State.rxByte_judged, hholds i (by omega), s.txByte_framed_pdu hilo hpdu]

end Sys2Proof.Machine
end

section
/-! PROOFS. The validator (42_validator.md R80 to R90): the cause of each result and what it leaves, the bytes it reads,
and the residue test, by which a frame with one byte changed is refused. -/

namespace Sys2Proof.Machine

/- What FRM.VALIDATE answers -/

/-- A failed FRM.VALIDATE empties RXPLEN, and sets ERR whatever it was (R97). -/
theorem State.failValidate_eq {c : ResultCode} (hc : c ≠ .ok) (s : State) :
    s.failValidate c = { s with rxplen := 0, result := c, err := true } :=
  (s.setRxplen 0).report_of_ne_ok hc

theorem State.addressRefused_iff (s : State) : s.addressRefused = true ↔ s.achk = true ∧ s.rxByte 0 ≠ s.rxexp := by
  rw [addressRefused, Bool.and_eq_true, bne_iff_ne]

/-- Each result has its own cause (R81 to R86). -/
theorem frmValidate_result_iff {s t : State} (h : exec .frmValidate s = .next t) :
    (t.result = .frameTooShort ↔ s.rxlen.toNat < 4) ∧
    (t.result = .frameTooLong ↔ 256 < s.rxlen.toNat) ∧
    (t.result = .crcMismatch ↔ 4 ≤ s.rxlen.toNat ∧ s.rxlen.toNat ≤ 256 ∧
      s.computedCrc s.rxlen.toNat ≠ s.receivedCrc s.rxlen.toNat) ∧
    (t.result = .unexpectedSlaveAddress ↔ 4 ≤ s.rxlen.toNat ∧ s.rxlen.toNat ≤ 256 ∧
      s.computedCrc s.rxlen.toNat = s.receivedCrc s.rxlen.toNat ∧ s.addressRefused = true) ∧
    (t.result = .ok ↔ 4 ≤ s.rxlen.toNat ∧ s.rxlen.toNat ≤ 256 ∧
      s.computedCrc s.rxlen.toNat = s.receivedCrc s.rxlen.toNat ∧ s.addressRefused = false) := by
  rcases execFrmValidate_cases s with ⟨hshort, e⟩ | ⟨hlong, e⟩ | ⟨hlo, hhi, hcrc, e⟩ | ⟨hlo, hhi, hcrc, haddr, e⟩ |
    ⟨hlo, hhi, hcrc, haddr, e⟩ <;> cases h.symm.trans e
  · simp [hshort, Nat.not_le.2 hshort, show s.rxlen.toNat ≤ 256 by omega]
  · simp [hlong, Nat.not_le.2 hlong, show 4 ≤ s.rxlen.toNat by omega]
  · simp [hcrc, hlo, hhi]
  · simp [hcrc, haddr, hlo, hhi]
  · simp [hcrc, haddr, hlo, hhi]

/-- RXPLEN is the length of the PDU after OK and 0 after a failure (R86). -/
theorem frmValidate_rxplen {s t : State} (h : exec .frmValidate s = .next t) :
    t.rxplen = if t.result = .ok then BitVec.ofNat 9 (s.rxlen.toNat - 3) else 0 := by
  rcases execFrmValidate_cases s with ⟨-, e⟩ | ⟨-, e⟩ | ⟨-, -, -, e⟩ | ⟨-, -, -, -, e⟩ | ⟨-, -, -, -, e⟩ <;>
    cases h.symm.trans e <;> rfl

/-- A bad length computes no CRC (R82, R83). -/
theorem frmValidate_crcs_of_badLength {s t : State} (h : exec .frmValidate s = .next t)
    (hbad : s.rxlen.toNat < 4 ∨ 256 < s.rxlen.toNat) :
    t.acc = s.acc ∧ t.rxcrcCalc = s.rxcrcCalc ∧ t.rxcrcRecv = s.rxcrcRecv := by
  rcases hbad with hshort | hlong
  · cases h.symm.trans (exec_frmValidate_of_tooShort hshort)
    exact ⟨rfl, rfl, rfl⟩
  · cases h.symm.trans (exec_frmValidate_of_tooLong hlong)
    exact ⟨rfl, rfl, rfl⟩

/-- The CRC step writes ACC and RXCRC, whatever the verdict (R84). -/
theorem frmValidate_crcs_of_length {s t : State} (h : exec .frmValidate s = .next t) (hlo : 4 ≤ s.rxlen.toNat)
    (hhi : s.rxlen.toNat ≤ 256) :
    t.acc = s.computedCrc s.rxlen.toNat ∧ t.rxcrcCalc = s.computedCrc s.rxlen.toNat ∧
      t.rxcrcRecv = s.receivedCrc s.rxlen.toNat := by
  cases h.symm.trans (exec_frmValidate_of_length hlo hhi)
  exact ⟨rfl, rfl, rfl⟩

/-- Settles O17: the five cases of FRM.VALIDATE, each with the conditions before it refused. -/
theorem validateRunsItsChecksInOrder : Obligations.ValidateRunsItsChecksInOrder := by
  refine ⟨decode_encode .frmValidate, ?_⟩
  rintro s _ r recv rfl hr hrecv
  obtain rfl : r = s.computedCrc s.rxlen.toNat := hr
  obtain rfl : recv = s.receivedCrc s.rxlen.toNat := hrecv
  simp only [← s.addressRefused_iff]
  rcases execFrmValidate_cases s with ⟨hshort, e⟩ | ⟨hlong, e⟩ | ⟨hlo, hhi, hcrc, e⟩ | ⟨hlo, hhi, hcrc, haddr, e⟩ |
    ⟨hlo, hhi, hcrc, haddr, e⟩ <;> refine e.trans (congrArg Host.Outcome.next ?_)
  · rw [if_pos hshort, State.failValidate_eq (by decide)]
  · rw [if_neg (by omega), if_pos hlong, State.failValidate_eq (by decide)]
  · rw [if_neg (by omega), if_neg (by omega), if_pos hcrc, State.failValidate_eq (by decide)]
    rfl
  · rw [if_neg (by omega), if_neg (by omega), if_neg (not_not.2 hcrc), if_pos haddr,
      State.failValidate_eq (by decide)]
    rfl
  · rw [if_neg (by omega), if_neg (by omega), if_neg (not_not.2 hcrc), if_neg (by simp [haddr]), State.report_ok]
    rfl

/-- Settles O18, from the causes of the results and what a bad length leaves. -/
theorem validateReportsLengthsExactly : Obligations.ValidateReportsLengthsExactly := by
  intro s
  obtain ⟨t, h⟩ := exec_next .frmValidate s
  obtain ⟨hshort, hlong, -, -, hok⟩ := frmValidate_result_iff h
  refine ⟨t, h, hshort, hlong, fun hbad => ?_⟩
  obtain ⟨hacc, hcalc, hrecv⟩ := frmValidate_crcs_of_badLength h hbad
  have hfail : t.result ≠ .ok := fun hr => by
    obtain ⟨hlo, hhi, -⟩ := hok.1 hr
    omega
  exact ⟨hacc, hcalc, hrecv, by rw [frmValidate_rxplen h, if_neg hfail]⟩

/-- Settles O19, from the causes of the results and what the CRC step leaves. -/
theorem validateReportsCrcAndAddressExactly : Obligations.ValidateReportsCrcAndAddressExactly := by
  rintro s _ r recv rfl hr hrecv
  obtain rfl : r = s.computedCrc s.rxlen.toNat := hr
  obtain rfl : recv = s.receivedCrc s.rxlen.toNat := hrecv
  obtain ⟨t, h⟩ := exec_next .frmValidate s
  obtain ⟨-, -, hcrc, haddr, -⟩ := frmValidate_result_iff h
  rw [s.addressRefused_iff] at haddr
  exact ⟨t, h, hcrc, haddr, frmValidate_crcs_of_length h⟩

/-- Settles O20: the PDU of a frame of legal length has from 1 to 253 bytes, and the two CRCs are one. -/
theorem validateOkLeavesThePdu : Obligations.ValidateOkLeavesThePdu := by
  intro s
  obtain ⟨t, h⟩ := exec_next .frmValidate s
  obtain ⟨-, -, -, -, hiff⟩ := frmValidate_result_iff h
  have hplen := frmValidate_rxplen h
  by_cases hok : t.result = .ok
  · obtain ⟨hlo, hhi, hcrc, -⟩ := hiff.1 hok
    obtain ⟨hacc, hcalc, hrecv⟩ := frmValidate_crcs_of_length h hlo hhi
    have hlen : t.rxplen.toNat = s.rxlen.toNat - 3 := by
      rw [hplen, if_pos hok, BitVec.toNat_ofNat, Nat.mod_eq_of_lt (by omega)]
    have hne : t.rxplen ≠ 0 := fun hzero => by
      have hnone : t.rxplen.toNat = 0 := congrArg BitVec.toNat hzero
      omega
    exact ⟨t, h, iff_of_true hne hok, fun _ => ⟨by omega, by omega, by omega, hacc, hcalc.trans hacc.symm,
      hrecv.trans (hcrc.symm.trans hacc.symm)⟩⟩
  · rw [if_neg hok] at hplen
    exact ⟨t, h, iff_of_false (not_not.2 hplen) hok, fun hr => absurd hr hok⟩

/- The bytes it reads -/

/-- Both CRCs of an `n`-byte frame depend on its `n` bytes alone (R80). -/
theorem State.crcs_congr_of_lt {s u : State} {n : Nat} (hn : 2 ≤ n) (hbytes : ∀ i, i < n → u.rxByte i = s.rxByte i) :
    u.computedCrc n = s.computedCrc n ∧ u.receivedCrc n = s.receivedCrc n := by
  refine ⟨congrArg crc16 (List.map_congr_left fun i hi => ?_), ?_⟩
  · have hlt : i < n - 2 := List.mem_range.1 hi
    exact hbytes i (by omega)
  · rw [receivedCrc, hbytes _ (by omega), hbytes _ (by omega), receivedCrc]

/-- Settles O21: a bad length is bad in both states, and both verdicts are given on the shared inputs. -/
theorem validateReadsOnlyItsInputs : Obligations.ValidateReadsOnlyItsInputs := by
  intro s u hachk hlen hexp hbytes
  obtain hshort | hlong | ⟨hlo, hhi⟩ :
      s.rxlen.toNat < 4 ∨ 256 < s.rxlen.toNat ∨ (4 ≤ s.rxlen.toNat ∧ s.rxlen.toNat ≤ 256) := by omega
  · exact ⟨_, _, exec_frmValidate_of_tooShort hshort, exec_frmValidate_of_tooShort (hlen ▸ hshort), rfl, rfl,
      fun hlo => by omega⟩
  · exact ⟨_, _, exec_frmValidate_of_tooLong hlong, exec_frmValidate_of_tooLong (hlen ▸ hlong), rfl, rfl,
      fun _ hhi => by omega⟩
  · have hread : ∀ i, i < s.rxlen.toNat → u.rxByte i = s.rxByte i := fun i hi => hbytes i hi (by omega)
    obtain ⟨hcomputed, hreceived⟩ := State.crcs_congr_of_lt (by omega) hread
    have haddr : u.addressRefused = s.addressRefused := by
      rw [State.addressRefused, hread 0 (by omega), hachk, hexp, State.addressRefused]
    have hverdict : u.verdict = s.verdict := by
      rw [State.verdict, hlen, hcomputed, hreceived, haddr, State.verdict]
    refine ⟨_, _, exec_frmValidate_of_length hlo hhi, exec_frmValidate_of_length (hlen ▸ hlo) (hlen ▸ hhi), ?_⟩
    simp only [State.judged_eq, hlen, hcomputed, hreceived, hverdict, and_self, implies_true]

/- The residue test -/

theorem crcStep_injective_left (b : Byte) : Function.Injective fun r => crcStep r b := fun _ _ h =>
  (BitVec.xor_left_inj _).1 ((crcShifts_bijective 8).1 h)

theorem crcStep_injective_right (r : Half) : Function.Injective (crcStep r) := fun b b' h => by
  have hwide : b.setWidth 16 = b'.setWidth 16 := (BitVec.xor_right_inj _).1 ((crcShifts_bijective 8).1 h)
  simpa using congrArg (BitVec.setWidth 8) hwide

/-- Two bytes fold an accumulator to zero exactly when they are its own, low byte first (R76 law 4). -/
theorem crcStep_crcStep_eq_zero_iff (r : Half) (lo hi : Byte) :
    crcStep (crcStep r lo) hi = 0 ↔ r = joinBytes hi lo := by
  have hown : crcStep (crcStep (joinBytes hi lo) lo) hi = 0 := by
    simpa using crcStep_lowByte_highByte (joinBytes hi lo)
  refine ⟨fun h => ?_, fun h => h ▸ hown⟩
  exact crcStep_injective_left lo (crcStep_injective_left hi (h.trans hown.symm))

/-- A frame carries its CRC exactly when its residue is zero (R90). -/
theorem State.computedCrc_eq_receivedCrc_iff (s : State) {n : Nat} (hn : 2 ≤ n) :
    s.computedCrc n = s.receivedCrc n ↔ crc16 (s.rxBytes n) = 0 := by
  obtain ⟨m, rfl⟩ := Nat.exists_eq_add_of_le' hn
  have hframe : s.rxBytes (m + 2) = s.rxBytes m ++ [s.rxByte m, s.rxByte (m + 1)] := by
    simp [rxBytes, List.range_succ]
  rw [hframe, crc16_append]
  exact (crcStep_crcStep_eq_zero_iff _ _ _).symm

/-- Settles O24: the bytes of the frame are those under the CRC and then its two CRC bytes. -/
theorem residueTestIsEquivalent : Obligations.ResidueTestIsEquivalent := fun s hlo _ =>
  s.computedCrc_eq_receivedCrc_iff (by omega)

/- A byte changed -/

theorem foldl_crcStep_injective (m : List Byte) : Function.Injective fun r => m.foldl crcStep r := by
  induction m with
  | nil => exact fun _ _ h => h
  | cons b m ih => exact ih.comp (crcStep_injective_left b)

/-- Messages that differ in one byte have different CRCs: each fold is injective in the byte and in the accumulator. -/
theorem crc16_set_injective {m : List Byte} {k : Nat} (hk : k < m.length) :
    Function.Injective fun b => crc16 (m.set k b) := fun b b' h => by
  simp only [List.set_eq_take_append_cons_drop, if_pos hk, crc16_append, List.foldl_cons] at h
  exact crcStep_injective_right _ (foldl_crcStep_injective _ h)

theorem State.rxBytes_writeRx (s : State) (n k : Nat) (b : Byte) :
    (s.writeRx k b).rxBytes n = (s.rxBytes n).set k b := by
  refine List.ext_getElem (by simp [rxBytes]) fun i _ _ => ?_
  rcases eq_or_ne k i with rfl | hne
  · simp [rxBytes]
  · simp [rxBytes, List.getElem_set_ne hne, rxByte_writeRx_other s b hne.symm]

/-- A frame that carries its CRC does not carry it any more when one of its bytes changes (R89). -/
theorem State.crcs_ne_writeRx {s : State} {n k : Nat} (hn : 2 ≤ n) (hk : k < n)
    (hcrc : s.computedCrc n = s.receivedCrc n) {b : Byte} (hb : b ≠ s.rxByte k) :
    (s.writeRx k b).computedCrc n ≠ (s.writeRx k b).receivedCrc n := by
  have hlen : k < (s.rxBytes n).length := by simpa [rxBytes] using hk
  have hsame : (s.rxBytes n).set k (s.rxByte k) = s.rxBytes n := by
    rw [show s.rxByte k = (s.rxBytes n)[k] by simp [rxBytes], List.set_getElem_self]
  rw [s.computedCrc_eq_receivedCrc_iff hn, ← hsame] at hcrc
  rw [Ne, State.computedCrc_eq_receivedCrc_iff _ hn, s.rxBytes_writeRx]
  exact fun hflip => hb (crc16_set_injective hlen (hflip.trans hcrc.symm))

theorem xor_bit_ne (b : Byte) {j : Nat} (hj : j < 8) : b ^^^ (1#8 <<< j) ≠ b := fun h => by
  have hbit : (b ^^^ (1#8 <<< j)).getLsbD j = b.getLsbD j := by rw [h]
  simp [hj] at hbit

/-- Settles O23: the length is still legal, the flipped byte is another byte, and ACHK is not in the CRC check. -/
theorem everySingleBitFlipIsCaught : Obligations.EverySingleBitFlipIsCaught := by
  intro s t k j achk h hok hk hj
  obtain ⟨-, -, -, -, hokIff⟩ := frmValidate_result_iff h
  obtain ⟨hlo, hhi, hcrc, -⟩ := hokIff.1 hok
  obtain ⟨u, hu⟩ := exec_next .frmValidate ((s.writeRx k (s.rxByte k ^^^ (1#8 <<< j))).setAchk achk)
  obtain ⟨-, -, hmismatch, -⟩ := frmValidate_result_iff hu
  exact ⟨u, hu, hmismatch.2 ⟨hlo, hhi, State.crcs_ne_writeRx (by omega) hk hcrc (xor_bit_ne _ hj)⟩⟩

end Sys2Proof.Machine
end

section
/-! PROOFS. Status, STS.CLEAR and the frame condition (43_status.md R91 to R94): a command writes RESULT whatever it
was, and each command writes only its row of R94's table. -/

namespace Sys2Proof.Machine

/- STS.CLEAR -/

theorem exec_stsClear (s : State) : exec .stsClear s = .next { s with result := .ok, err := false } := rfl

/-- Settles O25: the word is the encoding of STS.CLEAR. -/
theorem stsClearClearsStatusOnly : Obligations.StsClearClearsStatusOnly :=
  ⟨decode_encode .stsClear, exec_stsClear⟩

/- Reports -/

/-- No command reads RESULT, and each writes it (R92): by the meanings of the commands, field by field. -/
theorem exec_result_overwritten (i : Instr) (s : State) (c : ResultCode) :
    exec i { s with result := c } = exec i s := by
  cases i with
  | crcInit | crcByte b | frmEncode | frmValidate | stsClear => rfl

/-- No command word, legal or not, reads RESULT, and each writes it (R92). -/
theorem executeCommand_result_overwritten (w : Word) (s : State) (c : ResultCode) :
    executeCommand w { s with result := c } = executeCommand w s := by
  cases hd : decode w with
  | command i => rw [executeCommand_of_decode hd, executeCommand_of_decode hd, exec_result_overwritten]
  | illegal why => rw [executeCommand_of_illegal hd, executeCommand_of_illegal hd]

/-- The word of STS.CLEAR leaves a clear STATUS (R91). -/
theorem executeCommand_stsClear {w : Word} {s t : State} (hd : decode w = .command .stsClear)
    (h : executeCommand w s = .next t) : t.result = .ok ∧ t.err = false := by
  rw [executeCommand_of_decode hd, exec_stsClear] at h
  cases h
  exact ⟨rfl, rfl⟩

/-- An access that is no CMD write leaves STATUS alone (R92). -/
theorem access_keeps_status {a : Access} {s t : State} (h : access a s = .next t)
    (hcmd : a.off ≠ 0x004 ∨ a.op = .read) : t.result = s.result ∧ t.err = s.err := by
  cases hop : a.op with
  | read =>
    obtain ⟨p, hread⟩ := access_read_of_next hop h
    cases h.symm.trans (hread s)
    exact ⟨rfl, rfl⟩
  | write v =>
    have hoff : a.off ≠ 0x004 := hcmd.resolve_right (by simp [hop])
    obtain ⟨p, hstore⟩ := access_store_of_next hop hoff h
    obtain ⟨hresult, herr, -⟩ := s.writePlace_outputs v p
    cases h.symm.trans (hstore s)
    exact ⟨hresult, herr⟩

/-- Settles O27: RESULT is overwritten unread, ERR is set exactly on a failure, and other accesses keep STATUS. -/
theorem everyCommandReports : Obligations.EveryCommandReports := by
  refine ⟨fun w s => ?_, fun a s t => access_keeps_status⟩
  obtain ⟨t, h⟩ := executeCommand_next w s
  exact ⟨t, h, fun c => (executeCommand_result_overwritten w s c).trans h,
    fun hclear => executeCommand_stsClear hclear h, fun hother => executeCommand_err_iff hother h⟩

/- The rows of R94 -/

/-- FRM.ENCODE writes memory, ACC, TXFLEN and STATUS, and no register besides (R94). -/
theorem frmEncode_registers {s t : State} (h : exec .frmEncode s = .next t) :
    ∃ (m : Memory) (r : Half) (len : Len) (c : ResultCode) (err : Bool),
      t = { s with mem := m, acc := r, txflen := len, result := c, err := err } := by
  rcases execFrmEncode_cases s with ⟨-, e⟩ | ⟨-, -, e⟩ <;> cases h.symm.trans e
  · exact ⟨_, _, _, _, _, rfl⟩
  · exact ⟨_, _, _, _, _, s.withFrame_eq _ _⟩

/-- The memory FRM.ENCODE writes is the three bytes of its frame (R94), none of them in RXBUF. -/
theorem frmEncode_bytes {s t : State} (h : exec .frmEncode s = .next t) :
    (∀ a, a ≠ txOffset 0 → a ≠ txOffset (s.txlen.toNat + 1) → a ≠ txOffset (s.txlen.toNat + 2) →
      t.byteAt a = s.byteAt a) ∧ ∀ i, t.rxByte i = s.rxByte i := by
  rcases execFrmEncode_cases s with ⟨-, e⟩ | ⟨-, hhi, e⟩ <;> cases h.symm.trans e
  · exact ⟨fun _ _ _ _ => rfl, fun _ => rfl⟩
  · have hpdu : s.txlen.toNat ≤ 253 := hhi
    simp only [State.byteAt_report, State.byteAt_setTxflen, State.byteAt_setAcc, State.rxByte_report,
      State.rxByte_setTxflen, State.rxByte_setAcc]
    exact ⟨fun _ => s.byteAt_putFrame_other _ _, s.rxByte_putFrame _ _ (by omega)⟩

/-- FRM.VALIDATE writes ACC, RXCRC, RXPLEN and STATUS, and nothing besides (R94). -/
theorem frmValidate_row {s t : State} (h : exec .frmValidate s = .next t) :
    ∃ (r computed received : Half) (len : Len) (c : ResultCode) (err : Bool),
      t = { s with acc := r, rxcrcCalc := computed, rxcrcRecv := received, rxplen := len, result := c,
                   err := err } := by
  rcases execFrmValidate_cases s with ⟨-, e⟩ | ⟨-, e⟩ | ⟨-, -, -, e⟩ | ⟨-, -, -, -, e⟩ | ⟨-, -, -, -, e⟩ <;>
    cases h.symm.trans e <;> exact ⟨_, _, _, _, _, _, rfl⟩

/-- No command writes an input (R94). -/
theorem exec_sameInputs {i : Instr} {s t : State} (h : exec i s = .next t) : SameInputs s t := by
  cases i with
  | crcInit | crcByte b | stsClear => cases h; exact ⟨rfl, rfl, rfl, rfl, rfl, fun _ _ => rfl⟩
  | frmEncode =>
    obtain ⟨-, hrxbuf⟩ := frmEncode_bytes h
    obtain ⟨m, r, len, c, err, rfl⟩ := frmEncode_registers h
    exact ⟨rfl, rfl, rfl, rfl, rfl, fun i _ => hrxbuf i⟩
  | frmValidate =>
    obtain ⟨r, computed, received, len, c, err, rfl⟩ := frmValidate_row h
    exact ⟨rfl, rfl, rfl, rfl, rfl, fun _ _ => rfl⟩

/-- No command touches the model's own fields (log entries 2 to 4). -/
theorem exec_keeps_modelFields {i : Instr} {s t : State} (h : exec i s = .next t) :
    t.epoch = s.epoch ∧ t.pending = s.pending ∧ t.response = s.response := by
  cases i with
  | crcInit | crcByte b | stsClear => cases h; exact ⟨rfl, rfl, rfl⟩
  | frmEncode =>
    obtain ⟨m, r, len, c, err, rfl⟩ := frmEncode_registers h
    exact ⟨rfl, rfl, rfl⟩
  | frmValidate =>
    obtain ⟨r, computed, received, len, c, err, rfl⟩ := frmValidate_row h
    exact ⟨rfl, rfl, rfl⟩

/-- Only FRM.ENCODE writes memory and TXFLEN (R94). -/
theorem exec_keeps_txOutputs {i : Instr} {s t : State} (hi : i ≠ .frmEncode) (h : exec i s = .next t) :
    (∀ a, t.byteAt a = s.byteAt a) ∧ t.txflen = s.txflen := by
  cases i with
  | crcInit | crcByte b | stsClear => cases h; exact ⟨fun _ => rfl, rfl⟩
  | frmEncode => exact absurd rfl hi
  | frmValidate =>
    obtain ⟨r, computed, received, len, c, err, rfl⟩ := frmValidate_row h
    exact ⟨fun _ => rfl, rfl⟩

/-- Only FRM.VALIDATE writes RXPLEN and RXCRC (R94). -/
theorem exec_keeps_rxOutputs {i : Instr} {s t : State} (hi : i ≠ .frmValidate) (h : exec i s = .next t) :
    t.rxplen = s.rxplen ∧ t.rxcrcCalc = s.rxcrcCalc ∧ t.rxcrcRecv = s.rxcrcRecv := by
  cases i with
  | crcInit | crcByte b | stsClear => cases h; exact ⟨rfl, rfl, rfl⟩
  | frmEncode =>
    obtain ⟨m, r, len, c, err, rfl⟩ := frmEncode_registers h
    exact ⟨rfl, rfl, rfl⟩
  | frmValidate => exact absurd rfl hi

/-- Settles O29, from the rows of the five commands. -/
theorem commandsWriteOnlyTheirRow : Obligations.CommandsWriteOnlyTheirRow := by
  intro i s
  obtain ⟨t, h⟩ := exec_next i s
  obtain ⟨hepoch, hpending, hresponse⟩ := exec_keeps_modelFields h
  refine ⟨t, h, exec_sameInputs h, hepoch, hpending, hresponse, fun hi => exec_keeps_txOutputs hi h,
    fun hi => exec_keeps_rxOutputs hi h, ?_, ?_⟩
  · rintro rfl
    cases h.symm.trans (exec_stsClear s)
    rfl
  · rintro rfl
    obtain ⟨hbytes, -⟩ := frmEncode_bytes h
    exact hbytes

end Sys2Proof.Machine
end

section
/-! PROOFS. Errors (60_exceptions.md R95 to R101): the order of the bus checks, a host that goes on after a bus error,
runs that meet no error, and what a failing command records. -/

namespace Sys2Proof.Machine

/- The order of the bus checks -/

theorem Access.fullWidth_iff (a : Access) : a.fullWidth = true ↔ a.width = .bits32 ∧ a.lanes = 0b1111 := by
  simp [Access.fullWidth]

/-- The width is checked before everything else (R99). -/
theorem access_of_not_fullWidth {a : Access} (hw : a.fullWidth = false) (s : State) :
    access a s = .fault (.busError a.off .width) := by
  simp [access, hw, raiseBusError]

/-- The alignment is checked before the map (R99). -/
theorem access_of_not_aligned {a : Access} (hw : a.fullWidth = true) (ha : a.aligned = false) (s : State) :
    access a s = .fault (.busError a.off .misaligned) := by
  simp [access, hw, ha, raiseBusError]

/-- An offset outside the map is refused when the two other checks pass (R99). -/
theorem access_of_unmapped {a : Access} (hw : a.fullWidth = true) (ha : a.aligned = true) (hm : mapOffset a.off = none)
    (s : State) : access a s = .fault (.busError a.off .unmapped) := by
  simp [access, hw, ha, hm, raiseBusError]

/-- Settles O33: the three checks, each in terms of the access's width, lanes and offset. -/
theorem busChecksAreOrdered : Obligations.BusChecksAreOrdered := by
  intro a s
  have hwidth := a.fullWidth_iff
  have haligned := a.aligned_iff
  have hmapped := mappedOffset_iff a.off
  refine ⟨fun hbad => ?_, fun hw hl ho => ?_, fun hw hl ho hm => ?_⟩
  · refine access_of_not_fullWidth (Bool.eq_false_iff.2 fun h => ?_) s
    obtain ⟨hw, hl⟩ := hwidth.1 h
    exact hbad.elim (fun hne => hne hw) (fun hne => hne hl)
  · exact access_of_not_aligned (hwidth.2 ⟨hw, hl⟩) (Bool.eq_false_iff.2 fun h => ho (haligned.1 h)) s
  · refine access_of_unmapped (hwidth.2 ⟨hw, hl⟩) (haligned.2 ho) (Option.eq_none_iff_forall_ne_some.2 fun p hp => ?_) s
    exact Bool.eq_false_iff.1 hm (hmapped.2 ⟨ho, p, hp⟩)

/- Steps and runs -/

/-- A step whose next host step is an access performs it (R6). -/
theorem step_access {s : State} {a : Access} {rest : List HostStep} (hp : s.pending = .access a :: rest) :
    step s = access a (s.setPending rest) := by
  rw [step, hp]
  rfl

/-- A host that goes on after a bus error takes its next access with the block as it was (R96, R101). -/
theorem runHost_of_busError {s : State} {off : Offset} {cause : BusErrorCause}
    (h : step s = .fault (.busError off cause)) (k : Nat) : runHost (k + 1) s = runHost k (s.afterBusError off) := by
  rw [runHost, h]

/-- Settles O34: the access that is not admitted is a bus error, and the host goes on from `afterBusError`. -/
theorem hostGoesOnAfterBusError : Obligations.HostGoesOnAfterBusError := by
  intro s a rest k hp hadm
  obtain ⟨c, hc⟩ := (access_busError_iff a (s.setPending rest)).2 hadm
  have hstep := (step_access hp).trans hc
  exact ⟨⟨c, hstep⟩, s.afterBusError a.off, runHost_of_busError hstep k, rfl, by simp [State.afterBusError, hp], rfl⟩

/-- A step that the host may take is taken: an admitted access completes, and so does a reset (R95). -/
theorem step_of_admitted {s : State} {h : HostStep} {rest : List HostStep} (hp : s.pending = h :: rest)
    (hadm : h.admitted = true) : ∃ t, step s = .next t ∧ t.pending = rest := by
  have hnext : ∃ t, step s = .next t := by
    cases h with
    | access a =>
      rcases access_outcome a (s.setPending rest) with ⟨-, t, ht⟩ | ⟨hrefused, -⟩
      · exact ⟨t, (step_access hp).trans ht⟩
      · exact absurd hadm (Bool.eq_false_iff.1 hrefused)
    | reset held => exact ⟨(s.setPending rest).resetBlock, by rw [step, hp]; rfl⟩
    | accessDuringReset a => cases hadm
  obtain ⟨t, hstep⟩ := hnext
  obtain ⟨h', hp'⟩ := stepTakesOneHostStep s t hstep
  obtain ⟨-, hrest⟩ := List.cons.inj (hp.symm.trans hp')
  exact ⟨t, hstep, hrest.symm⟩

/-- Settles O48, by induction on the host's sequence. -/
theorem admittedSequencesRunToTheEnd : Obligations.AdmittedSequencesRunToTheEnd := by
  intro s hadm
  generalize hp : s.pending = seq at hadm ⊢
  induction seq generalizing s with
  | nil => exact ⟨s, rfl, hp⟩
  | cons h seq ih =>
    obtain ⟨hhead, hrest⟩ := List.forall_mem_cons.1 hadm
    obtain ⟨u, hstep, hu⟩ := step_of_admitted hp hhead
    obtain ⟨t, hrun, hend⟩ := ih u hu hrest
    exact ⟨t, (run_succ _ hstep).trans hrun, hend⟩

/- What a failing command records -/

/-- A failed FRM.ENCODE empties TXFLEN, and sets ERR whatever it was (R97). -/
theorem State.failEncode_eq {c : ResultCode} (hc : c ≠ .ok) (s : State) :
    s.failEncode c = { s with txflen := 0, result := c, err := true } :=
  (s.setTxflen 0).report_of_ne_ok hc

/-- Settles O30: the outcomes of every command word; each failing one is its own row of R97 and no other. -/
theorem failuresRecordTheirRow : Obligations.FailuresRecordTheirRow := by
  rintro w s t _ r recv rfl hr hrecv h
  obtain rfl : r = s.computedCrc s.rxlen.toNat := hr
  obtain rfl : recv = s.receivedCrc s.rxlen.toNat := hrecv
  cases hd : decode w with
  | illegal why =>
    cases h.symm.trans (executeCommand_of_illegal hd s)
    simp
  | command i =>
    rw [executeCommand_of_decode hd] at h
    cases i with
    | crcInit | crcByte b | stsClear => cases h; simp
    | frmEncode =>
      rcases execFrmEncode_cases s with ⟨hbad, e⟩ | ⟨-, -, e⟩ <;> cases h.symm.trans e
      · have hlen : s.txlen = 0 ∨ 253 < s.txlen.toNat :=
          hbad.imp_left fun hempty => BitVec.eq_of_toNat_eq (Nat.lt_one_iff.1 hempty)
        simpa [State.failEncode_eq] using hlen
      · simp
    | frmValidate =>
      rcases execFrmValidate_cases s with ⟨hshort, e⟩ | ⟨hlong, e⟩ | ⟨hlo, hhi, hcrc, e⟩ |
        ⟨hlo, hhi, hcrc, haddr, e⟩ | ⟨-, -, -, -, e⟩ <;> cases h.symm.trans e
      · simp [State.failValidate_eq, hshort]
      · simp [State.failValidate_eq, hlong]
      · simp [State.failValidate_eq, hlo, hhi, hcrc, State.crcChecked]
      · obtain ⟨hachk, hne⟩ := s.addressRefused_iff.1 haddr
        simp [State.failValidate_eq, hlo, hhi, hcrc, hachk, hne, State.crcChecked]
      · simp

end Sys2Proof.Machine
end

section
/-! PROOFS. Reset and hazards (70_reset_and_hazards.md R110 to R120): what reset leaves, the shared accumulator, the order
of input writes, and the bytes that a step does not write. -/

namespace Sys2Proof.Machine

/- The shared accumulator -/

/-- A command that fails before a CRC step, STS.CLEAR and an illegal command keep ACC (R114): by their rows of R97. -/
theorem executeCommand_keeps_acc {w : Word} {s t : State} (h : executeCommand w s = .next t)
    (hearly : t.result = .frameTooShort ∨ t.result = .frameTooLong ∨ t.result = .lengthRange ∨
      t.result = .illegalCommand ∨ decode w = .command .stsClear) : t.acc = s.acc := by
  obtain ⟨hshort, -, -, hlong, hrange, hillegal⟩ := failuresRecordTheirRow w s t _ _ _ rfl rfl rfl h
  rcases hearly with hr | hr | hr | hr | hd
  · obtain ⟨-, -, ht⟩ := hshort hr
    rw [ht]
  · obtain ⟨-, -, ht⟩ := hlong hr
    rw [ht]
  · obtain ⟨-, -, ht⟩ := hrange hr
    rw [ht]
  · obtain ⟨-, ht⟩ := hillegal hr
    rw [ht]
  · rw [executeCommand_of_decode hd, exec_stsClear] at h
    cases h
    rfl

/-- Settles O31: ACC after FRM.ENCODE and after the CRC step of FRM.VALIDATE is their frame's CRC, where CRC.BYTE goes
on. -/
theorem sharedAccumulatorHazard : Obligations.SharedAccumulatorHazard := by
  refine ⟨fun w s t => executeCommand_keeps_acc, fun s b hlo hhi => ?_, fun s b hlo hhi => ?_⟩
  · refine ⟨_, _, exec_frmEncode_of_length hlo hhi, exec_crcByte b _, ?_⟩
    rw [s.framed_acc, s.frameCrc_eq]
  · obtain ⟨t, ht⟩ := exec_next .frmValidate s
    obtain ⟨hacc, -⟩ := frmValidate_crcs_of_length ht hlo hhi
    exact ⟨t, _, ht, exec_crcByte b t, congrArg (crcStep · b) hacc⟩

/- Stores: a register, or one byte at the offset of its word -/

/-- A register write by the fields it may store to, each under its own register (R42). -/
theorem State.writeReg_eq (s : State) (v : Word) (r : Reg) : s.writeReg v r = { s with
    achk := if r = .ctrl then v.getLsbD 0 else s.achk
    txaddr := if r = .txaddr then v.extractLsb' 0 8 else s.txaddr
    txlen := if r = .txlen then v.extractLsb' 0 9 else s.txlen
    rxlen := if r = .rxlen then v.extractLsb' 0 9 else s.rxlen
    rxexp := if r = .rxexp then v.extractLsb' 0 8 else s.rxexp } := by
  cases r <;> rfl

/-- Writes to two registers commute: no field is stored to by both (R120). -/
theorem State.writeReg_comm (s : State) {r r' : Reg} (h : r ≠ r') (v v' : Word) :
    (s.writeReg v r).writeReg v' r' = (s.writeReg v' r').writeReg v r := by
  simp only [writeReg_eq]
  congr 1 <;> exact ite_ite_comm _ _ _ _ fun hr' hr => h (hr.trans hr'.symm)

/-- A register write neither reads nor writes the buffers. -/
theorem State.writeReg_writeByte (s : State) (v : Word) (r : Reg) (a : Nat) (b : Byte) :
    (s.writeByte a b).writeReg v r = (s.writeReg v r).writeByte a b := by
  rw [writeReg_eq, writeReg_eq]
  rfl

theorem State.writeByte_comm (s : State) {a a' : Nat} (h : a ≠ a') (b b' : Byte) :
    (s.writeByte a b).writeByte a' b' = (s.writeByte a' b').writeByte a b := by
  simp only [writeByte, Memory.write_comm s.mem b b' h]

/-- Of two stores to one place the last counts (R120). -/
theorem State.writePlace_overwrite (s : State) (v v' : Word) (p : Place) :
    (s.writePlace v p).writePlace v' p = s.writePlace v' p := by
  rcases p with r | i | i
  · cases r <;> rfl
  · exact s.writeByte_writeByte_same _ _ _
  · exact s.writeByte_writeByte_same _ _ _

/-- The place at an aligned offset is a register, or the byte listed at that very offset (R37, R43). -/
theorem place_register_or_byte {off : Offset} {p : Place} (ha : off.toNat % 4 = 0) (hm : mapOffset off = some p) :
    (∃ r, p = .reg r) ∨ ∀ (s : State) (v : Word), s.writePlace v p = s.writeByte off.toNat (v.extractLsb' 0 8) := by
  rcases mapOffset_cases off with ⟨r, e, -⟩ | ⟨i, -, e, hoff⟩ | ⟨i, -, e, hoff⟩ | ⟨e, -⟩ <;> cases hm.symm.trans e
  · exact .inl ⟨r, rfl⟩
  · have hbyte : off.toNat = txOffset i := by
      simp only [txOffset] at hoff ⊢
      omega
    exact .inr fun s v => by rw [hbyte]; rfl
  · have hbyte : off.toNat = rxOffset i := by
      simp only [rxOffset] at hoff ⊢
      omega
    exact .inr fun s v => by rw [hbyte]; rfl

/-- Stores to the places of two aligned offsets commute (R120). -/
theorem State.writePlace_comm (s : State) {off off' : Offset} {p p' : Place} (hne : off ≠ off')
    (ha : off.toNat % 4 = 0) (hm : mapOffset off = some p) (ha' : off'.toNat % 4 = 0) (hm' : mapOffset off' = some p')
    (v v' : Word) : (s.writePlace v p).writePlace v' p' = (s.writePlace v' p').writePlace v p := by
  rcases place_register_or_byte ha hm with ⟨r, rfl⟩ | hbyte <;>
    rcases place_register_or_byte ha' hm' with ⟨r', rfl⟩ | hbyte'
  · have hreg : r ≠ r' := by
      rintro rfl
      exact hne (mapOffset_inj ha ha' hm hm')
    exact s.writeReg_comm hreg v v'
  · rw [hbyte', hbyte']
    exact (s.writeReg_writeByte v r _ _).symm
  · rw [hbyte, hbyte]
    exact s.writeReg_writeByte v' r' _ _
  · have hnat : off.toNat ≠ off'.toNat := fun h => hne (BitVec.eq_of_toNat_eq h)
    simp only [hbyte, hbyte']
    exact s.writeByte_comm hnat _ _

/-- A mapped offset other than CMD's names a place that a 32-bit write stores to (R42). -/
theorem access_write_input {off : Offset} (hmapped : mappedOffset off.toNat = true) (hcmd : off ≠ 0x004) :
    off.toNat % 4 = 0 ∧ ∃ p, mapOffset off = some p ∧
      ∀ (v : Word) (s : State), access (.write32 off v) s = .next ((s.writePlace v p).respond .writeDone) := by
  obtain ⟨ha, p, hm⟩ := (mappedOffset_iff off).1 hmapped
  have hp : p ≠ .reg .cmd := fun hp => hcmd (mapOffset_cmd (hp ▸ hm))
  exact ⟨ha, p, hm, fun v s => (access_write32 ha hm v s).trans (memWrite_of_ne_cmd hp v s)⟩

/-- Settles O40: two offsets name two places, whose stores commute; at one place the last store counts. -/
theorem inputWritesCommute : Obligations.InputWritesCommute := by
  intro off off' v v' s hmapped hcmd hmapped' hcmd'
  obtain ⟨ha, p, hm, hstore⟩ := access_write_input hmapped hcmd
  obtain ⟨ha', p', hm', hstore'⟩ := access_write_input hmapped' hcmd'
  refine ⟨_, hstore v s, _, hstore' v' s, fun hne => ?_, ?_⟩
  · rw [hstore', hstore, State.writePlace_respond, State.writePlace_respond, s.writePlace_comm hne ha hm ha' hm']
  · rintro rfl
    obtain rfl : p = p' := Option.some.inj (hm.symm.trans hm')
    rw [hstore', State.writePlace_respond, State.writePlace_overwrite, State.respond_respond]

/- Bytes that are not written -/

/-- The state `t` has the byte at `a` from `s` as it was: listed or not, and under the same draws (R111). -/
structure KeepsByte (a : Nat) (s t : State) : Prop where
  epoch_eq : t.epoch = s.epoch
  lookup_eq : t.mem.lookup a = s.mem.lookup a

theorem KeepsByte.byteAt_eq {a : Nat} {s t : State} (h : KeepsByte a s t) : t.byteAt a = s.byteAt a := by
  rw [State.byteAt, h.lookup_eq, h.epoch_eq, State.byteAt]

/-- A byte that was its draw still is (R111). -/
theorem KeepsByte.byteAt_of_unlisted {a : Nat} {s t : State} (h : KeepsByte a s t) (hnone : s.mem.lookup a = none) :
    t.byteAt a = Config.bufferDraw s.epoch a := by
  rw [h.byteAt_eq, State.byteAt, hnone, Option.getD_none]

/-- If FRM.ENCODE stores a frame in the state, then not at `a` (R77). -/
def FrameAvoids (a : Nat) (s : State) : Prop :=
  1 ≤ s.txlen.toNat → s.txlen.toNat ≤ 253 →
    a ≠ txOffset 0 ∧ a ≠ txOffset (s.txlen.toNat + 1) ∧ a ≠ txOffset (s.txlen.toNat + 2)

/-- FRM.ENCODE keeps every byte outside its frame's three (R77, R94). -/
theorem frmEncode_keepsByte {a : Nat} {s t : State} (h : exec .frmEncode s = .next t) (ha : FrameAvoids a s) :
    KeepsByte a s t := by
  rcases execFrmEncode_cases s with ⟨-, e⟩ | ⟨hlo, hhi, e⟩ <;> cases h.symm.trans e
  · exact ⟨rfl, rfl⟩
  · obtain ⟨h0, h1, h2⟩ := ha hlo hhi
    exact ⟨rfl, s.lookup_putFrame_other _ _ h0 h1 h2⟩

/-- A command word keeps every byte that its FRM.ENCODE, if it is one, does not store to (R94). -/
theorem executeCommand_keepsByte {w : Word} {a : Nat} {s t : State} (h : executeCommand w s = .next t)
    (ha : decode w = .command .frmEncode → FrameAvoids a s) : KeepsByte a s t := by
  rcases executeCommand_cases w s with ⟨i, hd, e⟩ | ⟨why, -, e⟩
  · rw [e] at h
    cases i with
    | crcInit | crcByte b | stsClear => cases h; exact ⟨rfl, rfl⟩
    | frmEncode => exact frmEncode_keepsByte h (ha hd)
    | frmValidate =>
      obtain ⟨r, computed, received, len, c, err, rfl⟩ := frmValidate_row h
      exact ⟨rfl, rfl⟩
  · cases h.symm.trans e
    exact ⟨rfl, rfl⟩

/-- A store at an aligned offset keeps every other byte (R42, R43). -/
theorem writePlace_keepsByte {off : Offset} {p : Place} (haligned : off.toNat % 4 = 0) (hm : mapOffset off = some p)
    {a : Nat} (ha : off.toNat ≠ a) (s : State) (v : Word) : KeepsByte a s (s.writePlace v p) := by
  rcases place_register_or_byte haligned hm with ⟨r, rfl⟩ | hbyte
  · cases r <;> exact ⟨rfl, rfl⟩
  · rw [hbyte]
    exact ⟨rfl, Memory.lookup_write_other s.mem _ ha.symm⟩

/-- An access keeps a byte, unless it writes to its word or runs a FRM.ENCODE that stores there. -/
theorem access_keepsByte {acc : Access} {a : Nat} {s t : State} (h : access acc s = .next t)
    (hword : ∀ v, acc.op = .write v → acc.off.toNat ≠ a)
    (hframe : ∀ w, (HostStep.access acc).commandWord = some w → decode w = .command .frmEncode → FrameAvoids a s) :
    KeepsByte a s t := by
  cases hop : acc.op with
  | read =>
    obtain ⟨p, hread⟩ := access_read_of_next hop h
    cases h.symm.trans (hread s)
    exact ⟨rfl, rfl⟩
  | write v =>
    obtain ⟨hacc, haligned, p, hm⟩ := Access.eq_of_admitted (admitted_of_access_next h)
    have hwrite : access acc s = memWrite p v s := by
      rw [hacc, hop]
      exact access_write32 haligned hm v s
    rcases memWrite_cases p v s with ⟨rfl, e⟩ | ⟨-, e⟩ <;> rw [hwrite, e] at h
    · have hcmd : (HostStep.access acc).commandWord = some v := by
        rw [commandWord_write hop, if_pos (mapOffset_cmd hm)]
      exact { executeCommand_keepsByte h (hframe v hcmd) with }
    · cases h
      exact { writePlace_keepsByte haligned hm (hword v hop) s v with }

/-- Settles O44: reset lists no byte, and of the other steps only a completed access changes the block. -/
theorem unwrittenBytesAreStableDraws : Obligations.UnwrittenBytesAreStableDraws := by
  refine ⟨fun s held => ⟨s.resetBlock, rfl, fun _ => rfl, fun _ _ => ⟨rfl, rfl⟩⟩, ?_⟩
  intro s t h rest a hp hstep hreset hword hframe
  have hkeep : KeepsByte a s t := by
    cases h with
    | access acc =>
      rw [step_access hp] at hstep
      exact { access_keepsByte hstep (fun v => hword acc v rfl) hframe with }
    | reset held => exact absurd rfl (hreset held)
    | accessDuringReset acc =>
      rw [step, hp] at hstep
      cases hstep
  exact ⟨hkeep.epoch_eq, hkeep.lookup_eq, hkeep.byteAt_eq, hkeep.byteAt_of_unlisted⟩

/- Reset -/

/-- A reset state is that of power-up but for the draws and the host's coming steps (R109 to R112). -/
theorem exists_eq_reset {s t : State} {held : Option Word}
    (h : t = State.reset ∨ hostStep (.reset held) s = .next t) :
    ∃ (epoch : Nat) (pending : List HostStep), t = { State.reset with epoch := epoch, pending := pending } := by
  rcases h with rfl | h
  · exact ⟨_, _, rfl⟩
  · cases h
    exact ⟨_, _, rfl⟩

/-- Settles O43: the registers of `State.reset`, which neither the draws nor the coming steps enter. -/
theorem resetValues : Obligations.ResetValues := by
  intro s t held h
  obtain ⟨epoch, pending, rfl⟩ := exists_eq_reset h
  have hcrcw : (swap16 Config.crcInit).setWidth 32 = 0x0000FFFF#32 := by decide
  have hrxcrc : 0#16 ++ 0#16 = 0x00000000#32 := by decide
  exact ⟨rfl, rfl, rfl, rfl, hcrcw, rfl, rfl, rfl, rfl, rfl, rfl, hrxcrc, fun _ => rfl⟩

/-- Settles O45: the step of a reset is `resetBlock`, whatever command the reset coincides with. -/
theorem resetAbandonsTheHeldCommand : Obligations.ResetAbandonsTheHeldCommand := by
  intro s w rest hp
  rw [step, hp]
  rfl

/-- Settles O46: a reset of any state meets the invariant, and the invariant does not speak of the draws. -/
theorem resetSatisfiesInvariant : Obligations.ResetSatisfiesInvariant := { State.inv_resetBlock State.reset with }

end Sys2Proof.Machine
end
